-- ==== Sys2Proof/Word.lean ====
section
/-! DEFINITION. The word types of the block: every datum is a byte or a nibble (spec 00_scope.md R9).
Times, lengths and the baud rate are numbers, not words, and are `Nat`. -/

namespace Sys2Proof

/-- 8 bits, bit 0 least significant (R9). A *character* is a byte holding an ASCII code. -/
abbrev Byte := BitVec 8

/-- 4 bits: `b[7:4]` or `b[3:0]` of a byte (R9). -/
abbrev Nibble := BitVec 4

end Sys2Proof
end

