-- ==== Sys2Proof/Config.lean ====
section
/-! DEFINITION. What is fixed for one instance of the block (spec 00_scope.md R8): the parameters the spec
leaves OPEN, the configuration record `cfg`, and the constants the source fixes. A parameter is a FIELD of
`Config`, so that a statement about every state is a statement about every parameter value
(93_implementation_defined.md U3, U4, U5, U18: treatment "parameter"). -/

namespace Sys2Proof

/-- Letter case NIB2HEX emits for 10..15 (R8 `HEX_CASE`, D6). -/
inductive HexCase where
  | upper
  | lower
deriving DecidableEq, Repr

/-- The parameters and the configuration record of R8, constant from RESET onward (R8, R241, U20). -/
structure Config where
  /-- `BODY_CAP`: capacity of the body buffer in bytes, any integer ≥ 0 (R51, U3). -/
  bodyCap : Nat
  /-- `HEX_CASE` (R75, D6). -/
  hexCase : HexCase
  /-- `TERM`: the bytes SEND appends after the frame (R82, D7). -/
  term : List Byte
  /-- `FIXED_OVERHEAD` of the hold formula (R191, D8). -/
  fixedOverhead : Nat
  /-- `W_TIME`: width of `now`, `hold`, `release_at`; `none` is "unbounded" (R8, R193, D10). -/
  wTime : Option Nat
  /-- `W_CNT`: width of the truncation counter (R29, D16). -/
  wCnt : Nat
  /-- `cfg.BAUD`: bits per second (R28). -/
  baud : Nat
  /-- `cfg.TE_EN`: is transmit-enable timing configured (R28). -/
  teEn : Bool
  /-- `cfg.NODE_ID`: the node id of every outbound frame (R28, D14). -/
  nodeId : Byte
  /-- `TE_ACTIVE_LEVEL`: electrical level of "asserted"; used by no rule (R8, D26). -/
  teActiveLevel : Bool
deriving DecidableEq, Repr

/-- `TAG` = `5B 4D 53 50 5D`, ASCII `[MSP]` (R8). -/
def tagBytes : List Byte := [0x5B, 0x4D, 0x53, 0x50, 0x5D]

/-- `TAG_LEN` = 5 (R8). -/
def tagLength : Nat := 5

/-- `PAYLOAD_MAX` = 255: the longest payload SEND accepts (R8, R180). -/
def payloadMax : Nat := 255

/-- `HEX_DEC_ERROR` = 0: what HEX2NIB answers for a character that is no hex digit (R8, R76). -/
def hexDecError : Nibble := 0

/-- The default parameters of R8 with the configuration of the spec's test vectors
(95_test_vectors.md: `cfg = {BAUD = 9600, TE_EN = true, NODE_ID = 0x00}`).
DESIGN CHOICE, notes/assumptions/2: R8 gives the three `cfg` values and `TE_ACTIVE_LEVEL` no default. -/
def Config.default : Config :=
  { bodyCap := 256, hexCase := .upper, term := [0x0D, 0x0A], fixedOverhead := 18, wTime := some 32,
    wCnt := 16, baud := 9600, teEn := true, nodeId := 0x00, teActiveLevel := true }

/-- `RX_PAYLOAD_MAX`: the largest datasize a received line can carry; `none` when `BODY_CAP < 16`
and no line decodes (R8). -/
def Config.rxPayloadMax (c : Config) : Option Nat :=
  if 16 ≤ c.bodyCap then some (min 255 ((c.bodyCap - 16) / 2)) else none

/-- The ranges R8 gives the parameters, and the constraint `cfg.BAUD >= 1` whenever `cfg.TE_EN` (R192, R245). -/
def Config.wellFormed (c : Config) : Bool :=
  c.term.all (fun b => b == 0x0D || b == 0x0A) && (c.wTime != some 0) && decide (1 ≤ c.wCnt) &&
    (!c.teEn || decide (1 ≤ c.baud))

end Sys2Proof
end

