-- ==== Sys2Proof/Syntax.lean ====
section
/-! DEFINITION. The syntax: packets, the interfaces and the transactions they carry, and `Instr`, one
constructor for each row of spec/opcode_table.json (30_encoding.md R86; 00_scope.md R5). -/

namespace Sys2Proof

/-- A packet register's fields (10_state.md R21). `datasize` is the payload length as a byte; a packet whose
payload has another length is outside every operand's domain (`Packet.sized`). -/
structure Packet where
  ptype : Byte
  nodeId : Byte
  commandId : Byte
  datasize : Byte
  payload : List Byte
  parity : Byte
deriving DecidableEq, Repr

/-- Where a transaction arrives. `rx`, `cmd`, `tick` and `rst` are the input interfaces of R6. `hexchar`, `ptype`
and `frame` are the selector formats of the opcode table (R86), and the others are the block's internal functions,
each selected by its own call and by no bit pattern (R86: "selected by the interface it arrives on or is an internal
function"). DESIGN CHOICE, notes/assumptions/4. -/
inductive Port where
  | rx
  | cmd
  | tick
  | rst
  | hexchar
  | ptype
  | frame
  | nib2hex
  | hex2nib
  | byte2hex
  | hex2byte
  | parity
  | isvalid
  | tagcmp
  | decode
  | encode
  | holdcalc
deriving DecidableEq, Repr

/-- One raw transaction as it is presented to the block: the port, its bytes, and the value of the port's one
numeric operand (`now` on `cmd` and `tick`, `baud` of HOLDCALC, `tag_len` of TAGCMP; 0 on every other port).
DESIGN CHOICE, notes/assumptions/4: R6 gives the operands of an interface, no layout. -/
structure Transaction where
  port : Port
  data : List Byte
  number : Nat
deriving DecidableEq, Repr

/-- Why the decoder refuses a transaction: the port cannot carry it. -/
inductive DecodeRefusal where
  /-- the number of bytes is not what the port carries -/
  | badLength
  /-- the numeric operand is present on a port that has none -/
  | unexpectedNumber
  /-- NIB2HEX was given a value above 15 (R100: "no value outside 0..15 can be presented") -/
  | notANibble
  /-- `payload` is not of length `datasize` (R120, R122) -/
  | payloadLength
  /-- `tag_len` is above 5 (R138) -/
  | tagLength
  /-- a line contains CR or LF (R81: only characters between line breaks make a line) -/
  | lineBreak
deriving DecidableEq, Repr

/-- One constructor for each row of spec/opcode_table.json. -/
inductive Instr where
  /-- RX.LF: the byte 0x0A on `rx` (R136). -/
  | rxLf
  /-- RX.CR: the byte 0x0D on `rx` (R135). -/
  | rxCr
  /-- RX.DATA: any other byte on `rx` (R132). -/
  | rxData (b : Byte)
  /-- HEX.0 … HEX.9: the characters 0x30..0x39 in a hex2 position (R75). -/
  | hex0
  | hex1
  | hex2
  | hex3
  | hex4
  | hex5
  | hex6
  | hex7
  | hex8
  | hex9
  /-- HEX.A … HEX.F: the characters 0x41..0x46 (R75). -/
  | hexA
  | hexB
  | hexC
  | hexD
  | hexE
  | hexF
  /-- HEX.LOWER_A … HEX.LOWER_F: the characters 0x61..0x66 (R75). -/
  | hexLowerA
  | hexLowerB
  | hexLowerC
  | hexLowerD
  | hexLowerE
  | hexLowerF
  /-- HEX.INVALID: each of the other 234 characters (R76). -/
  | hexInvalid (c : Byte)
  /-- PT.REPLY … PT.RESET: the seven assigned packet type bytes (R78). -/
  | ptReply
  | ptEvent
  | ptArray
  | ptValue
  | ptRequest
  | ptError
  | ptReset
  /-- PT.UNASSIGNED: each of the other 249 type bytes (R79). -/
  | ptUnassigned (t : Byte)
  /-- FRAME: the characters of one whole line, without its line break (R70, R86). -/
  | frame (line : List Byte)
  /-- NIB2HEX (R100). -/
  | nib2hex (v : Nibble)
  /-- HEX2NIB (R102). -/
  | hex2nib (c : Byte)
  /-- BYTE2HEX (R104). -/
  | byte2hex (b : Byte)
  /-- HEX2BYTE (R106); `c0` is the character at the lower offset. -/
  | hex2byte (c0 c1 : Byte)
  /-- PARITY (R120). -/
  | parity (ptype nodeId commandId datasize : Byte) (payload : List Byte)
  /-- ISVALID (R122). -/
  | isvalid (pkt : Packet)
  /-- TAGCMP (R138): the tag buffer's 5 bytes and `tag_len`. -/
  | tagcmp (tag : List Byte) (tagLen : Nat)
  /-- DECODE (R150). -/
  | decode (body : List Byte)
  /-- ENCODE (R170). -/
  | encode (ptype nodeId commandId : Byte) (payload : List Byte)
  /-- SEND (R175). -/
  | send (ptype commandId : Byte) (payload : List Byte) (now : Nat)
  /-- HOLDCALC (R190). -/
  | holdcalc (baud : Nat) (datasize : Byte)
  /-- TICK (R195). -/
  | tick (now : Nat)
  /-- RESET (R240). -/
  | reset
deriving DecidableEq, Repr

end Sys2Proof
end

