-- ==== Sys2Proof/Decode.lean ====
section
/-! DEFINITION. From a raw transaction to the instruction it selects, and back. Each port has its own table; on
`rx`, `hexchar` and `ptype` the byte's value selects the row (30_encoding.md R75, R76, R78 to R80), on every other
port the port itself does (R86). Total on every transaction; what a port cannot carry is refused by name. -/

namespace Sys2Proof

/-- `b[7:4]`, the high nibble (R9). -/
def Byte.hi (b : Byte) : Nibble := b.extractLsb' 4 4

/-- `b[3:0]`, the low nibble (R9). -/
def Byte.lo (b : Byte) : Nibble := b.extractLsb' 0 4

/-- The byte whose high nibble is `h` and low nibble is `l`:
`(zext_8(h) << 4) | zext_8(l)` (R106, notation R10). -/
def Byte.ofNibbles (h l : Nibble) : Byte := (h.zeroExtend 8 <<< 4) ||| l.zeroExtend 8

/-- The 22 hex digit characters (30_encoding.md R75). -/
def isHexDigit (c : Byte) : Bool :=
  (decide (0x30 ≤ c.toNat) && decide (c.toNat ≤ 0x39)) || (decide (0x41 ≤ c.toNat) && decide (c.toNat ≤ 0x46)) ||
    (decide (0x61 ≤ c.toNat) && decide (c.toNat ≤ 0x66))

/-- The seven assigned packet type codes (30_encoding.md R78). -/
def isAssignedType (t : Byte) : Bool :=
  [0x01, 0x02, 0x03, 0x04, 0x05, 0x07, 0x1F].contains t

/-- CR and LF, the two bytes that are never RX.DATA (30_encoding.md R80). -/
def isLineBreak (b : Byte) : Bool := b == 0x0A || b == 0x0D

/-- The payload has the length the datasize byte says (41_parity.md R120, R122). -/
def Packet.sized (p : Packet) : Bool := p.payload.length == p.datasize.toNat

/-- Is `t` a value of `W_TIME` bits (R6: the `cmd` and `tick` interfaces carry `now` in `W_TIME` bits)? -/
def Config.timeFits (c : Config) (t : Nat) : Bool :=
  match c.wTime with
  | none => true
  | some w => decide (t < 2 ^ w)

/-- The 22 `hexchar` rows of the opcode table: character and instruction (R75). -/
def hexcharRows : List (Byte × Instr) :=
  [(0x30, .hex0), (0x31, .hex1), (0x32, .hex2), (0x33, .hex3), (0x34, .hex4), (0x35, .hex5), (0x36, .hex6),
   (0x37, .hex7), (0x38, .hex8), (0x39, .hex9)] ++
  [(0x41, .hexA), (0x42, .hexB), (0x43, .hexC), (0x44, .hexD), (0x45, .hexE), (0x46, .hexF)] ++
  [(0x61, .hexLowerA), (0x62, .hexLowerB), (0x63, .hexLowerC), (0x64, .hexLowerD), (0x65, .hexLowerE),
   (0x66, .hexLowerF)]

/-- The 7 `ptype` rows of the opcode table: type byte and instruction (R78). -/
def ptypeRows : List (Byte × Instr) :=
  [(0x01, .ptReply), (0x02, .ptEvent), (0x03, .ptArray), (0x04, .ptValue), (0x05, .ptRequest), (0x07, .ptError),
   (0x1F, .ptReset)]

/-- The RX byte classes, first match wins (R80). -/
def decodeRx (b : Byte) : Instr :=
  if b == 0x0A then .rxLf else if b == 0x0D then .rxCr else .rxData b

/-- A character in a hex2 position (R75, R76). -/
def decodeHexchar (c : Byte) : Instr := (hexcharRows.lookup c).getD (.hexInvalid c)

/-- A packet type byte (R78, R79). -/
def decodePtype (t : Byte) : Instr := (ptypeRows.lookup t).getD (.ptUnassigned t)

/-- A port without a numeric operand carries the number 0 and no other. -/
def noNumber (n : Nat) (i : Instr) : Except DecodeRefusal Instr :=
  if n = 0 then .ok i else .error .unexpectedNumber

/-- A port that carries exactly one byte. -/
def oneByte (data : List Byte) (f : Byte → Except DecodeRefusal Instr) : Except DecodeRefusal Instr :=
  match data with
  | [b] => f b
  | _ => .error .badLength

/-- A port that carries a line's characters: no CR and no LF (R81). -/
def decodeFramePort (data : List Byte) (n : Nat) : Except DecodeRefusal Instr :=
  if data.any isLineBreak then .error .lineBreak else noNumber n (.frame data)

/-- NIB2HEX's operand is four bits wide (R100). -/
def decodeNibblePort (n : Nat) (v : Byte) : Except DecodeRefusal Instr :=
  if v.toNat < 16 then noNumber n (.nib2hex v.lo) else .error .notANibble

/-- HEX2BYTE's two characters, the lower offset first (R106). -/
def decodePairPort (data : List Byte) (n : Nat) : Except DecodeRefusal Instr :=
  match data with
  | [c0, c1] => noNumber n (.hex2byte c0 c1)
  | _ => .error .badLength

/-- PARITY's operands in fold order; the payload has `datasize` bytes (R120). -/
def decodeParityPort (data : List Byte) (n : Nat) : Except DecodeRefusal Instr :=
  match data with
  | p :: node :: c :: ds :: payload =>
    if payload.length = ds.toNat then noNumber n (.parity p node c ds payload) else .error .payloadLength
  | _ => .error .badLength

/-- ISVALID's operand is a whole packet (R122). The spec gives no layout for it: the four scalars in fold order, then the
parity, then the payload, whose length varies and which therefore comes last, where R122 lists the payload before the
parity. DESIGN CHOICE, notes/assumptions/17. -/
def decodeIsvalidPort (data : List Byte) (n : Nat) : Except DecodeRefusal Instr :=
  match data with
  | p :: node :: c :: ds :: q :: payload =>
    if payload.length = ds.toNat then
      noNumber n (.isvalid
        { ptype := p, nodeId := node, commandId := c, datasize := ds, payload := payload, parity := q })
    else .error .payloadLength
  | _ => .error .badLength

/-- TAGCMP's operands: the five bytes of the buffer, and `tag_len` as the port's number (R138). -/
def decodeTagcmpPort (data : List Byte) (n : Nat) : Except DecodeRefusal Instr :=
  if data.length = tagLength then
    if n ≤ tagLength then .ok (.tagcmp data n) else .error .tagLength
  else .error .badLength

/-- ENCODE's operands (R170). -/
def decodeEncodePort (data : List Byte) (n : Nat) : Except DecodeRefusal Instr :=
  match data with
  | p :: node :: c :: payload => noNumber n (.encode p node c payload)
  | _ => .error .badLength

/-- The `cmd` interface: SEND's operands, and `now` as the port's number (R6). -/
def decodeCmdPort (data : List Byte) (now : Nat) : Except DecodeRefusal Instr :=
  match data with
  | p :: c :: payload => .ok (.send p c payload now)
  | _ => .error .badLength

/-- A port that carries no byte. -/
def noBytes (data : List Byte) (r : Except DecodeRefusal Instr) : Except DecodeRefusal Instr :=
  match data with
  | [] => r
  | _ => .error .badLength

/-- The instruction a transaction selects, or the reason its port cannot carry it. -/
def decode (t : Transaction) : Except DecodeRefusal Instr :=
  match t.port with
  | .rx => oneByte t.data fun b => noNumber t.number (decodeRx b)
  | .cmd => decodeCmdPort t.data t.number
  | .tick => noBytes t.data (.ok (.tick t.number))
  | .rst => noBytes t.data (noNumber t.number .reset)
  | .hexchar => oneByte t.data fun c => noNumber t.number (decodeHexchar c)
  | .ptype => oneByte t.data fun c => noNumber t.number (decodePtype c)
  | .frame => decodeFramePort t.data t.number
  | .nib2hex => oneByte t.data (decodeNibblePort t.number)
  | .hex2nib => oneByte t.data fun c => noNumber t.number (.hex2nib c)
  | .byte2hex => oneByte t.data fun b => noNumber t.number (.byte2hex b)
  | .hex2byte => decodePairPort t.data t.number
  | .parity => decodeParityPort t.data t.number
  | .isvalid => decodeIsvalidPort t.data t.number
  | .tagcmp => decodeTagcmpPort t.data t.number
  | .decode => noNumber t.number (.decode t.data)
  | .encode => decodeEncodePort t.data t.number
  | .holdcalc => oneByte t.data fun ds => .ok (.holdcalc t.number ds)

/-- The transaction that presents an instruction: its port, the bytes of its row in the opcode table or of its operands
in the order the rule lists them (ISVALID's parity apart, notes/assumptions/17), and its numeric operand. The layout of
the operands is a DESIGN CHOICE, notes/assumptions/4. -/
def encode : Instr → Transaction
  | .rxLf => ⟨.rx, [0x0A], 0⟩
  | .rxCr => ⟨.rx, [0x0D], 0⟩
  | .rxData b => ⟨.rx, [b], 0⟩
  | .hex0 => ⟨.hexchar, [0x30], 0⟩
  | .hex1 => ⟨.hexchar, [0x31], 0⟩
  | .hex2 => ⟨.hexchar, [0x32], 0⟩
  | .hex3 => ⟨.hexchar, [0x33], 0⟩
  | .hex4 => ⟨.hexchar, [0x34], 0⟩
  | .hex5 => ⟨.hexchar, [0x35], 0⟩
  | .hex6 => ⟨.hexchar, [0x36], 0⟩
  | .hex7 => ⟨.hexchar, [0x37], 0⟩
  | .hex8 => ⟨.hexchar, [0x38], 0⟩
  | .hex9 => ⟨.hexchar, [0x39], 0⟩
  | .hexA => ⟨.hexchar, [0x41], 0⟩
  | .hexB => ⟨.hexchar, [0x42], 0⟩
  | .hexC => ⟨.hexchar, [0x43], 0⟩
  | .hexD => ⟨.hexchar, [0x44], 0⟩
  | .hexE => ⟨.hexchar, [0x45], 0⟩
  | .hexF => ⟨.hexchar, [0x46], 0⟩
  | .hexLowerA => ⟨.hexchar, [0x61], 0⟩
  | .hexLowerB => ⟨.hexchar, [0x62], 0⟩
  | .hexLowerC => ⟨.hexchar, [0x63], 0⟩
  | .hexLowerD => ⟨.hexchar, [0x64], 0⟩
  | .hexLowerE => ⟨.hexchar, [0x65], 0⟩
  | .hexLowerF => ⟨.hexchar, [0x66], 0⟩
  | .hexInvalid c => ⟨.hexchar, [c], 0⟩
  | .ptReply => ⟨.ptype, [0x01], 0⟩
  | .ptEvent => ⟨.ptype, [0x02], 0⟩
  | .ptArray => ⟨.ptype, [0x03], 0⟩
  | .ptValue => ⟨.ptype, [0x04], 0⟩
  | .ptRequest => ⟨.ptype, [0x05], 0⟩
  | .ptError => ⟨.ptype, [0x07], 0⟩
  | .ptReset => ⟨.ptype, [0x1F], 0⟩
  | .ptUnassigned t => ⟨.ptype, [t], 0⟩
  | .frame line => ⟨.frame, line, 0⟩
  | .nib2hex v => ⟨.nib2hex, [v.zeroExtend 8], 0⟩
  | .hex2nib c => ⟨.hex2nib, [c], 0⟩
  | .byte2hex b => ⟨.byte2hex, [b], 0⟩
  | .hex2byte c0 c1 => ⟨.hex2byte, [c0, c1], 0⟩
  | .parity p n c ds payload => ⟨.parity, p :: n :: c :: ds :: payload, 0⟩
  | .isvalid k => ⟨.isvalid, k.ptype :: k.nodeId :: k.commandId :: k.datasize :: k.parity :: k.payload, 0⟩
  | .tagcmp tag tagLen => ⟨.tagcmp, tag, tagLen⟩
  | .decode body => ⟨.decode, body, 0⟩
  | .encode p n c payload => ⟨.encode, p :: n :: c :: payload, 0⟩
  | .send p c payload now => ⟨.cmd, p :: c :: payload, now⟩
  | .holdcalc baud ds => ⟨.holdcalc, [ds], baud⟩
  | .tick now => ⟨.tick, [], now⟩
  | .reset => ⟨.rst, [], 0⟩

/-- `rx 5B 4D …` in the stimulus syntax of R85: one `rx` transaction per byte, in order. -/
def rxTransactions (bytes : List Byte) : List Transaction := bytes.map (fun b => ⟨.rx, [b], 0⟩)

/-- The low `n` bytes of `w`, the least significant first: the first character of a line lies in bits 7..0. The spec packs
no line into a word (R86: "the characters of a whole line"). DESIGN CHOICE, notes/assumptions/18. -/
def bytesOf : Nat → Nat → List Byte
  | 0, _ => []
  | n + 1, w => BitVec.ofNat 8 w :: bytesOf n (w / 256)

/-- The port of an 8-bit word of the opcode table. The table does not say which interface carries a word, and its
formats overlap (0x30 is both HEX.0 and an RX.DATA byte): a row whose mask is 0xFF wins over one whose mask is 0,
and among the latter RX.DATA (order 3) over the two rows of order 99. The 31 rows of mask 0xFF differ pairwise.
DESIGN CHOICE, notes/assumptions/5. -/
def tablePort (b : Byte) : Port :=
  if isLineBreak b then .rx
  else if (hexcharRows.lookup b).isSome then .hexchar
  else if (ptypeRows.lookup b).isSome then .ptype
  else .rx

/-- The transaction a word of the opcode table stands for: one byte on the port of its row; a word of at least the 21
characters of the shortest frame (R71) is the FRAME row's line, its least significant byte the line's first character;
a word of any other number of bytes is no row of the table, and is laid out on `rx`, which carries one byte and refuses it.
Only the `nbits / 8` whole bytes are read: where `nbits` is no multiple of 8, or `w` has bits at or above it, the bits
beyond the last whole byte are dropped and do not make the word refused (12 bits 0xF0A are the byte 0x0A). DESIGN CHOICE,
notes/assumptions/5 for the ports and the 21 bytes, notes/assumptions/18 for the order of the bytes, notes/assumptions/19
for the dropped bits. -/
def tableTransaction (nbits w : Nat) : Transaction :=
  let bytes := bytesOf (nbits / 8) w
  match bytes with
  | [b] => ⟨tablePort b, [b], 0⟩
  | _ => if 21 ≤ bytes.length then ⟨.frame, bytes, 0⟩ else ⟨.rx, bytes, 0⟩

/-- The instruction the decoder reads from a word of the opcode table (the host's fixed name). -/
def decodeTableWord (nbits w : Nat) : Option Instr :=
  match decode (tableTransaction nbits w) with
  | .ok i => some i
  | .error _ => none

end Sys2Proof
end

