-- ==== Sys2Proof/WellFormed.lean ====
section
/-! DEFINITION. Which instructions exist: the operand domains the spec gives each operation. A width that the Lean
type already fixes (a nibble, a byte) needs no check. DECODE takes a body of any length: the rules are total on
byte lists (43_decode.md R150). -/

namespace Sys2Proof

/-- The operand domain of each instruction, under the configuration `c` (which gives `W_TIME`). -/
def Instr.wellFormed (c : Config) : Instr → Bool
  | .rxLf => true
  | .rxCr => true
  | .rxData b => !isLineBreak b
  | .hex0 => true
  | .hex1 => true
  | .hex2 => true
  | .hex3 => true
  | .hex4 => true
  | .hex5 => true
  | .hex6 => true
  | .hex7 => true
  | .hex8 => true
  | .hex9 => true
  | .hexA => true
  | .hexB => true
  | .hexC => true
  | .hexD => true
  | .hexE => true
  | .hexF => true
  | .hexLowerA => true
  | .hexLowerB => true
  | .hexLowerC => true
  | .hexLowerD => true
  | .hexLowerE => true
  | .hexLowerF => true
  | .hexInvalid ch => !isHexDigit ch
  | .ptReply => true
  | .ptEvent => true
  | .ptArray => true
  | .ptValue => true
  | .ptRequest => true
  | .ptError => true
  | .ptReset => true
  | .ptUnassigned t => !isAssignedType t
  | .frame line => !line.any isLineBreak
  | .nib2hex _ => true
  | .hex2nib _ => true
  | .byte2hex _ => true
  | .hex2byte _ _ => true
  | .parity _ _ _ datasize payload => payload.length == datasize.toNat
  | .isvalid pkt => pkt.sized
  | .tagcmp tag tagLen => tag.length == tagLength && decide (tagLen ≤ tagLength)
  | .decode _ => true
  | .encode _ _ _ payload => decide (payload.length ≤ payloadMax)
  | .send _ _ payload now => decide (payload.length ≤ payloadMax) && c.timeFits now
  | .holdcalc baud _ => decide (1 ≤ baud)
  | .tick now => c.timeFits now
  | .reset => true

end Sys2Proof
end

