-- ==== Sys2Proof/Machine/State.lean ====
section
/-! DEFINITION. The state of the block as plain data (10_state.md R20), its outputs as histories (R33), the results an
operation returns (00_scope.md R7), and the reasons a step can stop. -/

namespace Sys2Proof.Machine

/-- The two failure results of DECODE (60_exceptions.md R211, R212). -/
inductive LineError where
  | malformedLine
  | parityMismatch
deriving DecidableEq, Repr

/-- The result of DECODE: `Ok(pkt)` or `Fail(e)` (43_decode.md R150). -/
inductive DecodeResult where
  | ok (pkt : Packet)
  | fail (e : LineError)
deriving DecidableEq, Repr

/-- What one `rx` transaction returns on `evt` (00_scope.md R7). -/
inductive RxResult where
  /-- `None`: the byte was consumed, no line completed -/
  | none
  /-- `LineIgnored`: LF with tag mismatch -/
  | lineIgnored
  /-- `PacketAccepted(pkt)` -/
  | packetAccepted (pkt : Packet)
  /-- `DecodeError(e)` -/
  | decodeError (e : LineError)
deriving DecidableEq, Repr

/-- What the last operation returned (R10 `return v`): nothing, the value of a pure operation, or an `RxResult`. -/
inductive Returned where
  | nothing
  | nibble (v : Nibble)
  | byte (b : Byte)
  | hex2 (c0 c1 : Byte)
  | flag (b : Bool)
  | decoded (r : DecodeResult)
  | bytes (bs : List Byte)
  | number (n : Nat)
  | typeCode (t : Byte)
  | rx (r : RxResult)
deriving DecidableEq, Repr

/-- An entry of the output history (10_state.md R33). -/
inductive Event where
  | teAssert
  | teRelease
  | tx (bytes : List Byte)
  | rx (r : RxResult)
deriving DecidableEq, Repr

/-- The complete state. `cfg` is constant; `tag`, `body`, `truncCnt`, `rxPkt`, `txPkt`, `te`, `releaseAt` are the record
`S` of R20; `hist` is the output history of R33; `returned` and `pending` are the model's own. -/
structure State where
  /-- the parameters and `cfg` (R8): inputs of every step, never written (R241, U20) -/
  cfg : Config
  /-- `tag[0..tag_len-1]`; its length is `tag_len` (R20, R31) -/
  tag : List Byte
  /-- `body[0..body_len-1]`; its length is `body_len` (R20, R31) -/
  body : List Byte
  /-- `trunc_cnt` (R29) -/
  truncCnt : Nat
  /-- `rx_pkt`: `none` while `rx_pkt.valid` is false, when its fields hold no value (R23, U9) -/
  rxPkt : Option Packet
  /-- `tx_pkt` (R21) -/
  txPkt : Packet
  /-- `te`: true is Asserted, false is Idle (R27, R201) -/
  te : Bool
  /-- `release_at`: meaningful only while `te` (R20, U10) -/
  releaseAt : Nat
  /-- the outputs in operation order, oldest first (R33) -/
  hist : List Event
  /-- what the last operation returned (R7, R10) -/
  returned : Returned
  /-- the transactions the host will issue, the next one first (R5: one at a time, in a total order) -/
  pending : List Transaction
deriving DecidableEq, Repr

/-- No fault exists: "Fatal conditions: none", "There is no state from which the block cannot continue" (R217). -/
inductive Fault where
deriving DecidableEq, Repr

/-- Why the model gives an operation no meaning. -/
inductive Refusal where
  /-- raised by a dispatch arm without a meaning; no arm is left so. Safe. -/
  | notModelled (mnemonic : String)
  /-- raised by `step` on a transaction its port cannot carry. Safe: R6 gives no such transaction. -/
  | badTransaction (why : DecodeRefusal)
  /-- raised by SEND and ENCODE when the payload is longer than 255 bytes (R180, U6). Safe. -/
  | payloadTooLong
  /-- raised by SEND under `cfg.TE_EN`, and by HOLDCALC, when the baud rate is 0 (R192, U7). Safe. -/
  | baudZero
  /-- raised by SEND and TICK when `now` is no value of `W_TIME` bits (R175, R195). Safe: it cannot be presented. -/
  | timeTooWide
  /-- raised by a meaning given an operand outside the domain its rule names, which no transaction decodes to. Safe. -/
  | operandOutsideDomain
deriving DecidableEq, Repr

/-- `tx_pkt` after RESET: all fields zero, empty payload (R240). -/
def zeroPacket : Packet :=
  { ptype := 0, nodeId := 0, commandId := 0, datasize := 0, payload := [], parity := 0 }

/-- The machine right after reset (R20, R240, R241), with the default instance (notes/assumptions/2). `release_at` has no
reset value in the spec: 0 is a DESIGN CHOICE, notes/assumptions/3. No transaction is pending. -/
def State.reset : State :=
  { cfg := Config.default, tag := [], body := [], truncCnt := 0, rxPkt := none, txPkt := zeroPacket, te := false,
    releaseAt := 0, hist := [], returned := .nothing, pending := [] }

end Sys2Proof.Machine
end

