-- ==== Sys2Proof/Machine/Operands.lean ====
section
/-! DEFINITION. Operand assembly: hex digits and hex2 (30_encoding.md R74 to R76, 40_codec.md), and the one-byte reads
of a buffer at a fixed offset (20_memory.md R54, R56). -/

namespace Sys2Proof.Machine

/-- NIB2HEX (R100). -/
def nibToHex (hc : HexCase) (v : Nibble) : Byte :=
  if v.toNat ≤ 9 then 0x30 + v.zeroExtend 8
  else match hc with
    | .upper => 0x37 + v.zeroExtend 8
    | .lower => 0x57 + v.zeroExtend 8

/-- HEX2NIB (R102): every other character reads as `HEX_DEC_ERROR` (R76). -/
def hexToNib (c : Byte) : Nibble :=
  if 0x30 ≤ c.toNat ∧ c.toNat ≤ 0x39 then BitVec.ofNat 4 (c.toNat - 0x30)
  else if 0x41 ≤ c.toNat ∧ c.toNat ≤ 0x46 then BitVec.ofNat 4 (c.toNat - 0x37)
  else if 0x61 ≤ c.toNat ∧ c.toNat ≤ 0x66 then BitVec.ofNat 4 (c.toNat - 0x57)
  else hexDecError

/-- BYTE2HEX (R104): the high nibble's character first. -/
def byteToHex (hc : HexCase) (b : Byte) : Byte × Byte := (nibToHex hc b.hi, nibToHex hc b.lo)

/-- HEX2BYTE (R106). -/
def hexToByte (c0 c1 : Byte) : Byte := Byte.ofNibbles (hexToNib c0) (hexToNib c1)

/-- `X(v)` of R170: the two characters of BYTE2HEX as a list, in sending order. -/
def hexPair (hc : HexCase) (b : Byte) : List Byte := [nibToHex hc b.hi, nibToHex hc b.lo]

/-- One byte of a buffer (R54). Every caller has checked that the offset is below the length (R55), so the 0 of an
offset beyond it is never read. -/
def byteAt (buf : List Byte) (off : Nat) : Byte := (buf[off]?).getD 0

/-- `H(i)` of R150: the hex2 at offsets `i` and `i + 1`. -/
def hexAt (buf : List Byte) (off : Nat) : Byte := hexToByte (byteAt buf off) (byteAt buf (off + 1))

/-- The `n` payload bytes of a body: `H(13 + 2*i)` for `i` in `0 .. n-1` (R150, R53). -/
def payloadAt (body : List Byte) (n : Nat) : List Byte := (List.range n).map (fun i => hexAt body (13 + 2 * i))

end Sys2Proof.Machine
end

