-- ==== Sys2Proof/Machine/Flags.lean ====
section
/-! DEFINITION. The flags and status elements (10_state.md R27, R28): when each is set, the saturating counter, the
time arithmetic of the hold timer, the views R26 names, and the condition codes of R210. -/

namespace Sys2Proof.Machine

/-- `trunc_cnt` + 1, saturating at `2^W_CNT - 1` (R29, R132). -/
def saturatingSucc (width n : Nat) : Nat := min (n + 1) (2 ^ width - 1)

/-- `(now + hold) mod 2^W_TIME`; with `W_TIME` unbounded the `mod` is absent (R193). -/
def releaseTime (c : Config) (now hold : Nat) : Nat :=
  match c.wTime with
  | none => now + hold
  | some w => (now + hold) % 2 ^ w

/-- TICK's release condition: `te` and `now >= release_at`, inclusive (R195, R197). -/
def releaseDue (te : Bool) (now releaseAt : Nat) : Bool := te && decide (releaseAt ≤ now)

/-- `rx_pkt.valid` (R23, R27). -/
def State.rxValid (s : State) : Bool := s.rxPkt.isSome

/-- `tag_len` (R20, R31). -/
def State.tagLen (s : State) : Nat := s.tag.length

/-- `body_len` (R20, R31). -/
def State.bodyLen (s : State) : Nat := s.body.length

/-- The parser states that can be seen between operations (R26). -/
inductive ParserState where
  | accumulatingTag
  | accumulatingBody
deriving DecidableEq, Repr

/-- `AccumulatingTag` is `tag_len < 5`, `AccumulatingBody` is `tag_len = 5` (R26). -/
def State.parserState (s : State) : ParserState :=
  if s.tag.length < tagLength then .accumulatingTag else .accumulatingBody

/-- The reference code of a decode failure (R210). -/
def LineError.code : LineError → Nat
  | .malformedLine => 1
  | .parityMismatch => 2

/-- The reference code of `BufferTruncated`, a condition that is counted and never reported (R210, R213). -/
def bufferTruncatedCode : Nat := 3

/-- The reference code of a result (R210). -/
def RxResult.code : RxResult → Nat
  | .none => 0
  | .lineIgnored => 0
  | .packetAccepted _ => 0
  | .decodeError e => e.code

end Sys2Proof.Machine
end

