-- ==== Sys2Proof/Machine/Ops.lean ====
section
/-! DEFINITION. The named operations over the buffers and registers of the block: the buffers and their cells
(20_memory.md R50), each register's one writer, the outputs, and the shared operation that reports a decode failure
(60_exceptions.md R216), which is all the "exception entry" this block has. -/

namespace Sys2Proof.Machine

/-- The four address spaces (R50). -/
inductive Space where
  | tag
  | body
  | rxPayload
  | txPayload
deriving DecidableEq, Repr

/-- The bytes of a space from index 0 up to its current length (R31, R50). -/
def State.buffer (s : State) : Space → List Byte
  | .tag => s.tag
  | .body => s.body
  | .rxPayload => (s.rxPkt.map (·.payload)).getD []
  | .txPayload => s.txPkt.payload

/-- A memory: (index, byte) cells in canonical form. An unlisted index holds no value (R31, U11). -/
abbrev Memory := List Host.Cell

/-- The cells of a buffer whose first byte has index `n`. -/
def cellsFrom : Nat → List Byte → Memory
  | _, [] => []
  | n, b :: bs => (n, b) :: cellsFrom (n + 1) bs

/-- The cells of a space. -/
def State.memory (s : State) (sp : Space) : Memory := cellsFrom 0 (s.buffer sp)

/-- The canonical form: indices strictly rising. Nothing is listed that an unlisted index reads as, since that reads as
no value. -/
def Memory.wf : Memory → Bool
  | [] => true
  | [_] => true
  | c :: d :: m => decide (c.1 < d.1) && Memory.wf (d :: m)

/-- The byte at an index, if one is there. -/
def Memory.read : Memory → Nat → Option Byte
  | [], _ => none
  | c :: m, a => if c.1 = a then some c.2 else Memory.read m a

/-- One byte of a space: `none` at or beyond its current length (R31). -/
def State.readByte (s : State) (sp : Space) (a : Nat) : Option Byte := (s.buffer sp)[a]?

/-- `MemRead(buf, addr, n)` (R10): defined where `addr + n` is at most the buffer's length. -/
def memRead (buf : List Byte) (addr n : Nat) : List Byte := (buf.drop addr).take n

/-- `MemWrite(buf, addr, n, v)` with `n` the length of `v` (R10): defined where `addr` is at most the buffer's length
and the end stays inside its capacity, which every caller has checked. -/
def memWrite (buf : List Byte) (addr : Nat) (v : List Byte) : List Byte :=
  buf.take addr ++ v ++ buf.drop (addr + v.length)

/-- Set what the operation returns (R10 `return v`). -/
def State.returning (s : State) (r : Returned) : State := { s with returned := r }

/-- Append an entry to the output history (R33). -/
def State.record (s : State) (e : Event) : State := { s with hist := s.hist ++ [e] }

/-- End an `rx` transaction: return its result and record it on `evt` (R7, R33). -/
def State.endRx (s : State) (r : RxResult) : State := (s.record (.rx r)).returning (.rx r)

/-- `MemWrite(tag, tag_len, 1, [b])` and `tag_len + 1` (R132). -/
def State.storeTag (s : State) (b : Byte) : State := { s with tag := memWrite s.tag s.tag.length [b] }

/-- `MemWrite(body, body_len, 1, [b])` and `body_len + 1` (R132). -/
def State.storeBody (s : State) (b : Byte) : State := { s with body := memWrite s.body s.body.length [b] }

/-- Drop a body byte and count it (R134). -/
def State.countDropped (s : State) : State := { s with truncCnt := saturatingSucc s.cfg.wCnt s.truncCnt }

/-- `tag_len <- 0` and `body_len <- 0` (R136, R137). -/
def State.clearLine (s : State) : State := { s with tag := [], body := [] }

/-- `rx_pkt <- pkt`, `rx_pkt.valid <- true`, wholesale (R22, R136). -/
def State.acceptPacket (s : State) (pkt : Packet) : State := { s with rxPkt := some pkt }

/-- A decode failure, whole (R216): `rx_pkt` stays, the line is cleared, the event is returned; nothing is saved, no mode
changes and control goes nowhere, so nothing has to be returned from (R217). -/
def State.reportFailure (s : State) (e : LineError) : State := s.clearLine.endRx (.decodeError e)

/-- Replace the outbound packet (R176). -/
def State.setTxPacket (s : State) (pkt : Packet) : State := { s with txPkt := pkt }

/-- Assert TE and schedule its release (R175, R179): `TeAssert` is recorded only when `te` was false (R33). -/
def State.assertTe (s : State) (releaseAt : Nat) : State :=
  { s with te := true, releaseAt := releaseAt, hist := if s.te then s.hist else s.hist ++ [.teAssert] }

/-- De-assert TE; `TeRelease` is recorded when `te` was true (R33, R195, R242). -/
def State.releaseTe (s : State) : State :=
  { s with te := false, hist := if s.te then s.hist ++ [.teRelease] else s.hist }

/-- Every element at its reset value but `release_at`, which RESET does not write (R20, R240); `cfg` and the output
histories stay (R241). -/
def State.resetRegisters (s : State) : State :=
  { s with tag := [], body := [], truncCnt := 0, rxPkt := none, txPkt := zeroPacket }

/-- `emit_tx(bytes)` (R10, R33). -/
def State.emitTx (s : State) (bytes : List Byte) : State := s.record (.tx bytes)

/-- A pure operation: it reads and writes no state element; its value is returned (R5). -/
def answer (r : Returned) (s : State) : Host.Outcome State Fault Refusal := .next (s.returning r)

/-- `require p` (R175): outside the condition the operation has no meaning. -/
def requires (p : Bool) (why : Refusal) (o : Host.Outcome State Fault Refusal) : Host.Outcome State Fault Refusal :=
  if p then o else .refused why

/-- The bytes of one history entry on the `tx` stream. -/
def Event.txBytes : Event → List Byte
  | .tx bs => bs
  | .teAssert => []
  | .teRelease => []
  | .rx _ => []

/-- The `tx` output stream so far (R6, R33). -/
def State.txStream (s : State) : List Byte := s.hist.flatMap Event.txBytes

/-- The level of the `te` output after a history that starts de-asserted (R33). -/
def teLevel : Bool → List Event → Bool
  | l, [] => l
  | _, .teAssert :: h => teLevel true h
  | _, .teRelease :: h => teLevel false h
  | l, .tx _ :: h => teLevel l h
  | l, .rx _ :: h => teLevel l h

end Sys2Proof.Machine
end

