-- ==== Sys2Proof/Machine/Codec.lean ====
section
/-! DEFINITION. The four codec operations (40_codec.md): pure, total, no state read but the letter case parameter. -/

namespace Sys2Proof.Machine

/-- NIB2HEX (R100). -/
def execNib2hex (v : Nibble) (s : State) : Host.Outcome State Fault Refusal := answer (.byte (nibToHex s.cfg.hexCase v)) s

/-- HEX2NIB (R102). -/
def execHex2nib (c : Byte) (s : State) : Host.Outcome State Fault Refusal := answer (.nibble (hexToNib c)) s

/-- BYTE2HEX (R104). -/
def execByte2hex (b : Byte) (s : State) : Host.Outcome State Fault Refusal :=
  answer (.hex2 (byteToHex s.cfg.hexCase b).1 (byteToHex s.cfg.hexCase b).2) s

/-- HEX2BYTE (R106). -/
def execHex2byte (c0 c1 : Byte) (s : State) : Host.Outcome State Fault Refusal := answer (.byte (hexToByte c0 c1)) s

end Sys2Proof.Machine
end

