-- ==== Sys2Proof/Machine/HexChar.lean ====
section
/-! DEFINITION. The `hexchar` rows: a character read in a hex2 position (30_encoding.md R75, R76). Reading one yields
its nibble and changes no state (40_codec.md R102). -/

namespace Sys2Proof.Machine

/-- A hex2 position holds the character `c`: its nibble is returned (R75, R102). -/
def readHexChar (c : Byte) (s : State) : Host.Outcome State Fault Refusal := answer (.nibble (hexToNib c)) s

/-- HEX.0: `'0'`. -/
def execHex0 (s : State) : Host.Outcome State Fault Refusal := readHexChar 0x30 s
/-- HEX.1: `'1'`. -/
def execHex1 (s : State) : Host.Outcome State Fault Refusal := readHexChar 0x31 s
/-- HEX.2: `'2'`. -/
def execHex2 (s : State) : Host.Outcome State Fault Refusal := readHexChar 0x32 s
/-- HEX.3: `'3'`. -/
def execHex3 (s : State) : Host.Outcome State Fault Refusal := readHexChar 0x33 s
/-- HEX.4: `'4'`. -/
def execHex4 (s : State) : Host.Outcome State Fault Refusal := readHexChar 0x34 s
/-- HEX.5: `'5'`. -/
def execHex5 (s : State) : Host.Outcome State Fault Refusal := readHexChar 0x35 s
/-- HEX.6: `'6'`. -/
def execHex6 (s : State) : Host.Outcome State Fault Refusal := readHexChar 0x36 s
/-- HEX.7: `'7'`. -/
def execHex7 (s : State) : Host.Outcome State Fault Refusal := readHexChar 0x37 s
/-- HEX.8: `'8'`. -/
def execHex8 (s : State) : Host.Outcome State Fault Refusal := readHexChar 0x38 s
/-- HEX.9: `'9'`. -/
def execHex9 (s : State) : Host.Outcome State Fault Refusal := readHexChar 0x39 s
/-- HEX.A: `'A'`. -/
def execHexA (s : State) : Host.Outcome State Fault Refusal := readHexChar 0x41 s
/-- HEX.B: `'B'`. -/
def execHexB (s : State) : Host.Outcome State Fault Refusal := readHexChar 0x42 s
/-- HEX.C: `'C'`. -/
def execHexC (s : State) : Host.Outcome State Fault Refusal := readHexChar 0x43 s
/-- HEX.D: `'D'`. -/
def execHexD (s : State) : Host.Outcome State Fault Refusal := readHexChar 0x44 s
/-- HEX.E: `'E'`. -/
def execHexE (s : State) : Host.Outcome State Fault Refusal := readHexChar 0x45 s
/-- HEX.F: `'F'`. -/
def execHexF (s : State) : Host.Outcome State Fault Refusal := readHexChar 0x46 s
/-- HEX.LOWER_A: `'a'`. -/
def execHexLowerA (s : State) : Host.Outcome State Fault Refusal := readHexChar 0x61 s
/-- HEX.LOWER_B: `'b'`. -/
def execHexLowerB (s : State) : Host.Outcome State Fault Refusal := readHexChar 0x62 s
/-- HEX.LOWER_C: `'c'`. -/
def execHexLowerC (s : State) : Host.Outcome State Fault Refusal := readHexChar 0x63 s
/-- HEX.LOWER_D: `'d'`. -/
def execHexLowerD (s : State) : Host.Outcome State Fault Refusal := readHexChar 0x64 s
/-- HEX.LOWER_E: `'e'`. -/
def execHexLowerE (s : State) : Host.Outcome State Fault Refusal := readHexChar 0x65 s
/-- HEX.LOWER_F: `'f'`. -/
def execHexLowerF (s : State) : Host.Outcome State Fault Refusal := readHexChar 0x66 s
/-- HEX.INVALID: every other character; it is accepted and reads as `HEX_DEC_ERROR` (R76). -/
def execHexInvalid (c : Byte) (s : State) : Host.Outcome State Fault Refusal :=
  requires (!isHexDigit c) .operandOutsideDomain (readHexChar c s)

end Sys2Proof.Machine
end

