-- ==== Sys2Proof/Machine/PacketType.lean ====
section
/-! DEFINITION. The `ptype` rows: a decoded packet type byte (30_encoding.md R78, R79). The block gives the codes no
meaning: any value is accepted as an opaque byte and no state changes (R78, R79, 43_decode.md R160). The routing by
type is the Dispatcher's, out of scope (00_scope.md R4). -/

namespace Sys2Proof.Machine

/-- A type field holds the byte `t`: it is returned as it is (R78, R79). -/
def acceptType (t : Byte) (s : State) : Host.Outcome State Fault Refusal := answer (.typeCode t) s

/-- PT.REPLY. -/
def execPtReply (s : State) : Host.Outcome State Fault Refusal := acceptType 0x01 s
/-- PT.EVENT. -/
def execPtEvent (s : State) : Host.Outcome State Fault Refusal := acceptType 0x02 s
/-- PT.ARRAY. -/
def execPtArray (s : State) : Host.Outcome State Fault Refusal := acceptType 0x03 s
/-- PT.VALUE. -/
def execPtValue (s : State) : Host.Outcome State Fault Refusal := acceptType 0x04 s
/-- PT.REQUEST. -/
def execPtRequest (s : State) : Host.Outcome State Fault Refusal := acceptType 0x05 s
/-- PT.ERROR. -/
def execPtError (s : State) : Host.Outcome State Fault Refusal := acceptType 0x07 s
/-- PT.RESET: a type code, not the operation RESET. -/
def execPtReset (s : State) : Host.Outcome State Fault Refusal := acceptType 0x1F s
/-- PT.UNASSIGNED: decoded like any type (R79). -/
def execPtUnassigned (t : Byte) (s : State) : Host.Outcome State Fault Refusal :=
  requires (!isAssignedType t) .operandOutsideDomain (acceptType t s)

end Sys2Proof.Machine
end

