-- ==== Sys2Proof/Machine/Parity.lean ====
section
/-! DEFINITION. The parity unit (41_parity.md): PARITY and ISVALID. -/

namespace Sys2Proof.Machine

/-- PARITY (R120): exclusive-or fold from 0x00 over type, node id, command id, datasize, then the payload bytes in index
order (R121). -/
def parityOf (ptype nodeId commandId datasize : Byte) (payload : List Byte) : Byte :=
  payload.foldl (· ^^^ ·) ((((0x00 ^^^ ptype) ^^^ nodeId) ^^^ commandId) ^^^ datasize)

/-- PARITY of a packet's fields other than `parity` (R120). -/
def packetParity (p : Packet) : Byte := parityOf p.ptype p.nodeId p.commandId p.datasize p.payload

/-- ISVALID (R122): the stored parity equals PARITY. -/
def packetValid (p : Packet) : Bool := p.parity == packetParity p

/-- PARITY as an operation (R120); the payload has `datasize` bytes. -/
def execParity (ptype nodeId commandId datasize : Byte) (payload : List Byte) (s : State) :
    Host.Outcome State Fault Refusal :=
  requires (payload.length == datasize.toNat) .operandOutsideDomain
    (answer (.byte (parityOf ptype nodeId commandId datasize payload)) s)

/-- ISVALID as an operation (R122); the payload has `datasize` bytes. -/
def execIsvalid (pkt : Packet) (s : State) : Host.Outcome State Fault Refusal :=
  requires pkt.sized .operandOutsideDomain (answer (.flag (packetValid pkt)) s)

end Sys2Proof.Machine
end

