-- ==== Sys2Proof/Machine/LineDecoder.lean ====
section
/-! DEFINITION. The line decoder (43_decode.md): DECODE, a pure function from a body to a packet or a failure. -/

namespace Sys2Proof.Machine

/-- The packet at the fixed offsets of a body whose datasize byte is `ds` (R56, R154, R156). -/
def packetAt (body : List Byte) (ds : Byte) : Packet :=
  { ptype := hexAt body 1, nodeId := hexAt body 4, commandId := hexAt body 7, datasize := ds,
    payload := payloadAt body ds.toNat, parity := hexAt body (14 + 2 * ds.toNat) }

/-- DECODE (R150): prefix (R151), minimum length (R152), total length (R153), then parity (R156). The checked parity of
R155 is PARITY of the decoded fields. -/
def decodeLine (body : List Byte) : DecodeResult :=
  if body.length < 1 ∨ byteAt body 0 ≠ 0x54 then .fail .malformedLine
  else if body.length < 12 then .fail .malformedLine
  else
    let ds := hexAt body 10
    if body.length ≠ 16 + 2 * ds.toNat then .fail .malformedLine
    else
      let pkt := packetAt body ds
      if packetParity pkt ≠ pkt.parity then .fail .parityMismatch else .ok pkt

/-- DECODE as an operation (R150): it reads no state and writes none. -/
def execDecode (body : List Byte) (s : State) : Host.Outcome State Fault Refusal := answer (.decoded (decodeLine body)) s

end Sys2Proof.Machine
end

