-- ==== Sys2Proof/Machine/Parser.lean ====
section
/-! DEFINITION. The line parser (42_line_parser.md): RX.DATA, RX.CR, RX.LF, TAGCMP, and the FRAME row, the same
evaluation of a whole line's characters as a pure function. -/

namespace Sys2Proof.Machine

/-- TAGCMP (R138): all five characters are there and equal `[MSP]`, case-sensitively. -/
def tagMatches (tag : List Byte) (tagLen : Nat) : Bool :=
  tagLen == tagLength && byteAt tag 0 == 0x5B && byteAt tag 1 == 0x4D && byteAt tag 2 == 0x53 &&
    byteAt tag 3 == 0x50 && byteAt tag 4 == 0x5D

/-- TAGCMP as an operation (R138): operands are the 5 bytes of the buffer and a `tag_len` of at most 5. -/
def execTagcmp (tag : List Byte) (tagLen : Nat) (s : State) : Host.Outcome State Fault Refusal :=
  requires (tag.length == tagLength && decide (tagLen ≤ tagLength)) .operandOutsideDomain
    (answer (.flag (tagMatches tag tagLen)) s)

/-- Where RX.DATA puts its byte: the tag while `tag_len < 5`, then the body, then nowhere (R132, R134). -/
def storeRxByte (b : Byte) (s : State) : State :=
  if s.tagLen < tagLength then s.storeTag b
  else if s.bodyLen < s.cfg.bodyCap then s.storeBody b
  else s.countDropped

/-- RX.DATA (R132): any byte but CR and LF. -/
def execRxData (b : Byte) (s : State) : Host.Outcome State Fault Refusal :=
  requires (!isLineBreak b) .operandOutsideDomain (.next ((storeRxByte b s).endRx .none))

/-- RX.CR (R135): no state element is read or written. -/
def execRxCr (s : State) : Host.Outcome State Fault Refusal := .next (s.endRx .none)

/-- RX.LF (R136): compare the tag, decode the body, and clear the line whatever the result (R137). A decode failure is
reported by the shared operation of R216. -/
def completeLine (s : State) : State :=
  if tagMatches s.tag s.tagLen then
    match decodeLine (memRead s.body 0 s.bodyLen) with
    | .ok pkt => (s.acceptPacket pkt).clearLine.endRx (.packetAccepted pkt)
    | .fail e => s.reportFailure e
  else s.clearLine.endRx .lineIgnored

/-- RX.LF as an operation (R136). -/
def execRxLf (s : State) : Host.Outcome State Fault Refusal := .next (completeLine s)

/-- What a completed line's characters give (R141: the first 5 are the tag, of the rest the first `BODY_CAP` are the
body): ignored, accepted or failed (R131, R219). -/
def lineResult (bodyCap : Nat) (line : List Byte) : RxResult :=
  if tagMatches (line.take 5) (line.take 5).length then
    match decodeLine ((line.drop 5).take bodyCap) with
    | .ok pkt => .packetAccepted pkt
    | .fail e => .decodeError e
  else .lineIgnored

/-- FRAME (R70, R86): the characters of a whole line, compared and decoded. It is no `rx` transaction: no state element
changes and nothing is recorded on `evt`. DESIGN CHOICE, notes/assumptions/7. -/
def execFrame (line : List Byte) (s : State) : Host.Outcome State Fault Refusal :=
  requires (!line.any isLineBreak) .operandOutsideDomain (answer (.rx (lineResult s.cfg.bodyCap line)) s)

end Sys2Proof.Machine
end

