-- ==== Sys2Proof/Machine/ResetOp.lean ====
section
/-! DEFINITION. RESET (70_reset_and_hazards.md R240 to R242). -/

namespace Sys2Proof.Machine

/-- RESET (R240): every element at its reset value; TE is de-asserted at once whatever `release_at` (R242); `cfg` and the
histories stay (R241). -/
def execReset (s : State) : Host.Outcome State Fault Refusal := .next (s.releaseTe.resetRegisters.returning .nothing)

end Sys2Proof.Machine
end

