-- ==== Sys2Proof/Machine/TeTimer.lean ====
section
/-! DEFINITION. The hold timer and the transmit-enable sequencer (45_te_timer.md): HOLDCALC and TICK. -/

namespace Sys2Proof.Machine

/-- HOLDCALC (R190) under a `FIXED_OVERHEAD`: the integer quotient first, then an exact product, never reduced (R193).
Its domain is `baud >= 1` (R192). -/
def holdTime (fixedOverhead baud ds : Nat) : Nat := (10000000 / baud) * (2 * ds + tagLength + fixedOverhead)

/-- HOLDCALC as an operation (R190); a baud rate of 0 is refused (R192). -/
def execHoldcalc (baud : Nat) (datasize : Byte) (s : State) : Host.Outcome State Fault Refusal :=
  requires (decide (1 ≤ baud)) .baudZero
    (answer (.number (holdTime s.cfg.fixedOverhead baud datasize.toNat)) s)

/-- TICK's effect (R195): de-assert TE when its release is due; in Idle nothing is read (R198). -/
def checkRelease (now : Nat) (s : State) : State := if releaseDue s.te now s.releaseAt then s.releaseTe else s

/-- TICK (R195). -/
def execTick (now : Nat) (s : State) : Host.Outcome State Fault Refusal :=
  requires (s.cfg.timeFits now) .timeTooWide (.next ((checkRelease now s).returning .nothing))

end Sys2Proof.Machine
end

