-- ==== Sys2Proof/Machine/Transmit.lean ====
section
/-! DEFINITION. The frame serialiser and SEND (44_transmit.md). -/

namespace Sys2Proof.Machine

/-- The body part of a frame: `T..N..I..S..P…Q..` (R56, R170). -/
def encodeBody (hc : HexCase) (ptype nodeId commandId : Byte) (payload : List Byte) : List Byte :=
  let ds : Byte := BitVec.ofNat 8 payload.length
  [0x54] ++ hexPair hc ptype ++ [0x4E] ++ hexPair hc nodeId ++ [0x49] ++ hexPair hc commandId ++ [0x53] ++
    hexPair hc ds ++ [0x50] ++ payload.flatMap (hexPair hc) ++ [0x51] ++
    hexPair hc (parityOf ptype nodeId commandId ds payload)

/-- ENCODE (R170): the tag, then the body; the `P` and `Q` are always present (R72). -/
def encodeFrame (hc : HexCase) (ptype nodeId commandId : Byte) (payload : List Byte) : List Byte :=
  tagBytes ++ encodeBody hc ptype nodeId commandId payload

/-- ENCODE as an operation (R170): a payload of at most 255 bytes. -/
def execEncode (ptype nodeId commandId : Byte) (payload : List Byte) (s : State) : Host.Outcome State Fault Refusal :=
  requires (decide (payload.length ≤ payloadMax)) .payloadTooLong
    (answer (.bytes (encodeFrame s.cfg.hexCase ptype nodeId commandId payload)) s)

/-- The packet SEND builds (R175, R176): the node id is `cfg.NODE_ID`, the parity is computed. -/
def outboundPacket (nodeId ptype commandId : Byte) (payload : List Byte) : Packet :=
  let ds : Byte := BitVec.ofNat 8 payload.length
  { ptype, nodeId, commandId, datasize := ds, payload, parity := parityOf ptype nodeId commandId ds payload }

/-- SEND's TE part (R175, R178, R179): only when `cfg.TE_EN`. -/
def startHold (now ds : Nat) (s : State) : State :=
  if s.cfg.teEn then s.assertTe (releaseTime s.cfg now (holdTime s.cfg.fixedOverhead s.cfg.baud ds)) else s

/-- SEND's effect (R175): rebuild `tx_pkt`, assert TE before any byte is emitted (R177), emit the frame and `TERM`. -/
def sendPacket (ptype commandId : Byte) (payload : List Byte) (now : Nat) (s : State) : State :=
  (startHold now payload.length (s.setTxPacket (outboundPacket s.cfg.nodeId ptype commandId payload))).emitTx
    (encodeFrame s.cfg.hexCase ptype s.cfg.nodeId commandId payload ++ s.cfg.term)

/-- SEND (R175) with its two `require` lines (R180, R192) and the width of `now`. -/
def execSend (ptype commandId : Byte) (payload : List Byte) (now : Nat) (s : State) :
    Host.Outcome State Fault Refusal :=
  requires (decide (payload.length ≤ payloadMax)) .payloadTooLong <|
  requires (!s.cfg.teEn || decide (1 ≤ s.cfg.baud)) .baudZero <|
  requires (s.cfg.timeFits now) .timeTooWide <|
  .next ((sendPacket ptype commandId payload now s).returning .nothing)

end Sys2Proof.Machine
end

