-- ==== Sys2Proof/Machine/Dispatch.lean ====
section
/-! DEFINITION. One arm per constructor of Instr, each a direct call of that instruction's meaning. -/

namespace Sys2Proof.Machine

def exec (i : Instr) (s : State) : Host.Outcome State Fault Refusal :=
  match i with
  | .rxLf => Sys2Proof.Machine.execRxLf s
  | .rxCr => Sys2Proof.Machine.execRxCr s
  | .rxData b => Sys2Proof.Machine.execRxData b s
  | .hex0 => Sys2Proof.Machine.execHex0 s
  | .hex1 => Sys2Proof.Machine.execHex1 s
  | .hex2 => Sys2Proof.Machine.execHex2 s
  | .hex3 => Sys2Proof.Machine.execHex3 s
  | .hex4 => Sys2Proof.Machine.execHex4 s
  | .hex5 => Sys2Proof.Machine.execHex5 s
  | .hex6 => Sys2Proof.Machine.execHex6 s
  | .hex7 => Sys2Proof.Machine.execHex7 s
  | .hex8 => Sys2Proof.Machine.execHex8 s
  | .hex9 => Sys2Proof.Machine.execHex9 s
  | .hexA => Sys2Proof.Machine.execHexA s
  | .hexB => Sys2Proof.Machine.execHexB s
  | .hexC => Sys2Proof.Machine.execHexC s
  | .hexD => Sys2Proof.Machine.execHexD s
  | .hexE => Sys2Proof.Machine.execHexE s
  | .hexF => Sys2Proof.Machine.execHexF s
  | .hexLowerA => Sys2Proof.Machine.execHexLowerA s
  | .hexLowerB => Sys2Proof.Machine.execHexLowerB s
  | .hexLowerC => Sys2Proof.Machine.execHexLowerC s
  | .hexLowerD => Sys2Proof.Machine.execHexLowerD s
  | .hexLowerE => Sys2Proof.Machine.execHexLowerE s
  | .hexLowerF => Sys2Proof.Machine.execHexLowerF s
  | .hexInvalid c => Sys2Proof.Machine.execHexInvalid c s
  | .ptReply => Sys2Proof.Machine.execPtReply s
  | .ptEvent => Sys2Proof.Machine.execPtEvent s
  | .ptArray => Sys2Proof.Machine.execPtArray s
  | .ptValue => Sys2Proof.Machine.execPtValue s
  | .ptRequest => Sys2Proof.Machine.execPtRequest s
  | .ptError => Sys2Proof.Machine.execPtError s
  | .ptReset => Sys2Proof.Machine.execPtReset s
  | .ptUnassigned t => Sys2Proof.Machine.execPtUnassigned t s
  | .frame line => Sys2Proof.Machine.execFrame line s
  | .nib2hex v => Sys2Proof.Machine.execNib2hex v s
  | .hex2nib c => Sys2Proof.Machine.execHex2nib c s
  | .byte2hex b => Sys2Proof.Machine.execByte2hex b s
  | .hex2byte c0 c1 => Sys2Proof.Machine.execHex2byte c0 c1 s
  | .parity ptype nodeId commandId datasize payload => Sys2Proof.Machine.execParity ptype nodeId commandId datasize payload s
  | .isvalid pkt => Sys2Proof.Machine.execIsvalid pkt s
  | .tagcmp tag tagLen => Sys2Proof.Machine.execTagcmp tag tagLen s
  | .decode body => Sys2Proof.Machine.execDecode body s
  | .encode ptype nodeId commandId payload => Sys2Proof.Machine.execEncode ptype nodeId commandId payload s
  | .send ptype commandId payload now => Sys2Proof.Machine.execSend ptype commandId payload now s
  | .holdcalc baud datasize => Sys2Proof.Machine.execHoldcalc baud datasize s
  | .tick now => Sys2Proof.Machine.execTick now s
  | .reset => Sys2Proof.Machine.execReset s

end Sys2Proof.Machine
end

