-- ==== Sys2Proof/Machine/Step.lean ====
section
/-! DEFINITION. One step: the next pending transaction is taken, decoded and run to completion (00_scope.md R5); with
none pending the block is idle and keeps all state (60_exceptions.md R226). -/

namespace Sys2Proof.Machine

/-- One step of the machine. A transaction its port cannot carry is refused by name. -/
def step (s : State) : Host.Outcome State Fault Refusal :=
  match s.pending with
  | [] => .next s
  | t :: rest =>
    match decode t with
    | .ok i => exec i { s with pending := rest }
    | .error why => .refused (.badTransaction why)

/-- `s` with a word of the opcode table as its very next transaction, before any other. -/
def State.withFetchWord (s : State) (nbits w : Nat) : State :=
  { s with pending := tableTransaction nbits w :: s.pending }

end Sys2Proof.Machine
end

