-- ==== Sys2Proof/Safety.lean ====
section
/-! DEFINITION. What counts as a good state, in the terms the statements use: the invariant every step keeps. -/

namespace Sys2Proof.Machine

/-- `n` steps, stopping at a refusal: the host's `Host.Core.run` of `core` (`run_eq_core_run`, Laws/Exec.lean), written over the
model's own types. -/
def run : Nat → State → Host.Outcome State Fault Refusal
  | 0, s => .next s
  | n + 1, s =>
    match step s with
    | .next s' => run n s'
    | .fault f => .fault f
    | .refused r => .refused r

/-- A packet register's content is well formed (10_state.md R21, R24): the payload has `datasize` bytes and ISVALID holds. -/
def PacketGood (p : Packet) : Prop := p.sized = true ∧ packetValid p = true

/-- The invariant of the state. Each clause rules out only what no run reaches. -/
structure Inv (s : State) : Prop where
  /-- `tag_len` is 0..5 (R20) -/
  tag_le : s.tag.length ≤ tagLength
  /-- `body_len` is 0..`BODY_CAP` (R20, R59) -/
  body_le : s.body.length ≤ s.cfg.bodyCap
  /-- the body is empty until the tag is full (R25, R131) -/
  body_after_tag : s.tag.length < tagLength → s.body = []
  /-- no stored character is CR or LF (R80, R135) -/
  no_break : ∀ b ∈ s.tag ++ s.body, isLineBreak b = false
  /-- `trunc_cnt` is a value of `W_CNT` bits (R29) -/
  trunc_le : s.truncCnt ≤ 2 ^ s.cfg.wCnt - 1
  /-- whenever `rx_pkt.valid`, ISVALID(rx_pkt), and the packet fitted the body buffer (R24, R153) -/
  rx_good : ∀ p, s.rxPkt = some p → PacketGood p ∧ 16 + 2 * p.datasize.toNat ≤ s.cfg.bodyCap
  /-- ISVALID(tx_pkt) (R24, R176, R240) -/
  tx_good : PacketGood s.txPkt
  /-- TE is asserted only where it is configured (R178) -/
  te_configured : s.te = true → s.cfg.teEn = true
  /-- while TE is asserted `release_at` is a value of `W_TIME` bits (R20, R193) -/
  release_fits : s.te = true → s.cfg.timeFits s.releaseAt = true
  /-- the `te` output is the level its history of edges left (R33) -/
  te_history : teLevel false s.hist = s.te

/-- The exclusive-or of all bytes of a list, in no order that matters (41_parity.md R121). -/
def xorAll : List Byte → Byte
  | [] => 0
  | b :: bs => b ^^^ xorAll bs

/-- The hold of R190 for a state's instance and a payload length: the `release_at` of a SEND is `now` plus this. -/
def holdOf (s : State) (ds : Nat) : Nat := (10000000 / s.cfg.baud) * (2 * ds + 5 + s.cfg.fixedOverhead)

/-- The operations of the receive path (20_memory.md R62). -/
def IsReceive (i : Instr) : Prop := i = .rxLf ∨ i = .rxCr ∨ ∃ b, i = .rxData b

/-- The operations of the transmit path (20_memory.md R62). -/
def IsTransmit (i : Instr) : Prop := (∃ p c payload now, i = .send p c payload now) ∨ ∃ now, i = .tick now

/-- The `evt` results in a history (R33). -/
def evtOf (h : List Event) : List RxResult :=
  h.filterMap fun e => match e with
    | .rx r => some r
    | _ => none

/-- The `te` edges and `tx` bytes in a history (R33). -/
def txOf (h : List Event) : List Event :=
  h.filter fun e => match e with
    | .rx _ => false
    | _ => true

/-- At a line boundary: nothing of a line is accumulated (R137). -/
def AtLineBoundary (s : State) : Prop := s.tag = [] ∧ s.body = []

end Sys2Proof.Machine
end

