-- ==== Sys2Proof/Certificates/Slice0/Obligations.lean ====
section
/-! DEFINITION. The statements about the machine, for the provers. Each says which rules of spec/ it formalises. -/

open Sys2Proof Sys2Proof.Machine

/-- A step takes the next pending transaction and runs the instruction it decodes to; with none pending it changes
nothing; a transaction that decodes to nothing is refused by name; a word of the opcode table, fetched, runs next
(00_scope.md R5, R6; 60_exceptions.md R226). The queue of pending transactions and the refusal are the model's own,
notes/assumptions/4, and so is which transaction a table word stands for, notes/assumptions/5, 18
and 19. -/
def Obligations.StepRunsDecodedInstruction : Prop :=
  (∀ (s : State) (t : Transaction) (rest : List Transaction) (i : Instr), s.pending = t :: rest → decode t = .ok i →
    step s = exec i { s with pending := rest }) ∧
  (∀ (s : State) (t : Transaction) (rest : List Transaction) (why : DecodeRefusal), s.pending = t :: rest →
    decode t = .error why → step s = .refused (.badTransaction why)) ∧
  (∀ s : State, s.pending = [] → step s = .next s) ∧
  (∀ (s : State) (nbits w : Nat) (i : Instr), decodeTableWord nbits w = some i →
    step (s.withFetchWord nbits w) = exec i s)

/-- Written words decode to what they stand for. The byte values are those of 30_encoding.md R75 to R80. Which port a word of
the opcode table goes to is the model's choice, notes/assumptions/5, and so is the layout of the operands on `cmd` and
`tick`, notes/assumptions/4: R6 gives these interfaces their operands and no layout. -/
def Obligations.WrittenWordsDecode : Prop :=
  decodeTableWord 8 0x0A = some .rxLf ∧ decodeTableWord 8 0x0D = some .rxCr ∧
  decodeTableWord 8 0x39 = some .hex9 ∧ decodeTableWord 8 0x46 = some .hexF ∧
  decodeTableWord 8 0x66 = some .hexLowerF ∧ decodeTableWord 8 0x1F = some .ptReset ∧
  decode ⟨.rx, [0x30], 0⟩ = .ok (.rxData 0x30) ∧ decode ⟨.rx, [0x0A], 0⟩ = .ok .rxLf ∧
  decode ⟨.hexchar, [0x47], 0⟩ = .ok (.hexInvalid 0x47) ∧ decode ⟨.ptype, [0x06], 0⟩ = .ok (.ptUnassigned 0x06) ∧
  decode ⟨.cmd, [0x04, 0x01, 0x00, 0x00, 0x00, 0x01], 1000⟩ = .ok (.send 0x04 0x01 [0x00, 0x00, 0x00, 0x01] 1000) ∧
  decode ⟨.tick, [], 33271⟩ = .ok (.tick 33271) ∧ decode ⟨.rst, [], 0⟩ = .ok .reset

/-- Every byte on `rx` selects one parser operation by its value, first match wins, and that operation completes
(30_encoding.md R80). The queue of pending transactions is the model's own, notes/assumptions/4. -/
def Obligations.RxByteSelectsOperation : Prop :=
  ∀ (s : State) (b : Byte) (rest : List Transaction), s.pending = ⟨.rx, [b], 0⟩ :: rest →
    (∃ t, step s = .next t) ∧
    step s = exec (if b = 0x0A then .rxLf else if b = 0x0D then .rxCr else .rxData b) { s with pending := rest }

/-- Decoding and encoding agree: every well-formed instruction is what its transaction decodes to, and a transaction that
decodes is the one its instruction encodes to, so no byte of it is dropped. On `rx`, `hexchar`, `ptype` and `frame` the
bytes are the spec's (30_encoding.md R75 to R80, R86). On every other port the round trip speaks of the model's own layout,
DESIGN CHOICE, notes/assumptions/4 (for ISVALID also 17): R6 gives operands and no layout, and R86 says that no bit pattern
selects these rows. -/
def Obligations.DecodeEncodeAgree : Prop :=
  (∀ (c : Config) (i : Instr), i.wellFormed c = true → decode (encode i) = .ok i) ∧
  (∀ (t : Transaction) (i : Instr), decode t = .ok i → encode i = t)

/-- HEX2NIB: digits and letters of either case by value, every other character 0, nothing but the result changed
(40_codec.md R102). -/
def Obligations.Hex2nibResult : Prop :=
  ∀ (s : State) (c : Byte), ∃ v : Nibble, exec (.hex2nib c) s = .next { s with returned := .nibble v } ∧
    v.toNat = if 0x30 ≤ c.toNat ∧ c.toNat ≤ 0x39 then c.toNat - 0x30
      else if 0x41 ≤ c.toNat ∧ c.toNat ≤ 0x46 then c.toNat - 0x37
      else if 0x61 ≤ c.toNat ∧ c.toNat ≤ 0x66 then c.toNat - 0x57 else 0

/-- The 22 hex digit characters have their values, and every other character 0 (30_encoding.md R75, R76). That a row is an
operation that returns its nibble is the model's reading, notes/assumptions/11, and that HEX.INVALID stops by name on a
digit, which selects its own row, is the model's refusal, notes/assumptions/10. -/
def Obligations.HexCharacterRows : Prop :=
  ∀ s : State,
    exec .hex0 s = .next { s with returned := .nibble 0 } ∧ exec .hex1 s = .next { s with returned := .nibble 1 } ∧
    exec .hex2 s = .next { s with returned := .nibble 2 } ∧ exec .hex3 s = .next { s with returned := .nibble 3 } ∧
    exec .hex4 s = .next { s with returned := .nibble 4 } ∧ exec .hex5 s = .next { s with returned := .nibble 5 } ∧
    exec .hex6 s = .next { s with returned := .nibble 6 } ∧ exec .hex7 s = .next { s with returned := .nibble 7 } ∧
    exec .hex8 s = .next { s with returned := .nibble 8 } ∧ exec .hex9 s = .next { s with returned := .nibble 9 } ∧
    exec .hexA s = .next { s with returned := .nibble 10 } ∧ exec .hexB s = .next { s with returned := .nibble 11 } ∧
    exec .hexC s = .next { s with returned := .nibble 12 } ∧ exec .hexD s = .next { s with returned := .nibble 13 } ∧
    exec .hexE s = .next { s with returned := .nibble 14 } ∧ exec .hexF s = .next { s with returned := .nibble 15 } ∧
    exec .hexLowerA s = .next { s with returned := .nibble 10 } ∧
    exec .hexLowerB s = .next { s with returned := .nibble 11 } ∧
    exec .hexLowerC s = .next { s with returned := .nibble 12 } ∧
    exec .hexLowerD s = .next { s with returned := .nibble 13 } ∧
    exec .hexLowerE s = .next { s with returned := .nibble 14 } ∧
    exec .hexLowerF s = .next { s with returned := .nibble 15 } ∧
    (∀ c : Byte, isHexDigit c = false → exec (.hexInvalid c) s = .next { s with returned := .nibble 0 }) ∧
    (∀ c : Byte, isHexDigit c = true → exec (.hexInvalid c) s = .refused .operandOutsideDomain)

/-- Whatever character stands in a hex2 position, the row it selects does what HEX2NIB does on that character
(30_encoding.md R86, 40_codec.md R102). That a row is an operation of its own is the model's reading,
notes/assumptions/11. -/
def Obligations.HexPositionIsHex2nib : Prop :=
  ∀ c : Byte, ∃ i : Instr, decode ⟨.hexchar, [c], 0⟩ = .ok i ∧ ∀ s : State, exec i s = exec (.hex2nib c) s

/-- NIB2HEX gives the digit of the configured letter case, and HEX2NIB gives the nibble back
(40_codec.md R100, R101). -/
def Obligations.NibbleRoundTrip : Prop :=
  ∀ (s : State) (v : Nibble), ∃ ch : Byte, exec (.nib2hex v) s = .next { s with returned := .byte ch } ∧
    ch.toNat = (if v.toNat ≤ 9 then 0x30 + v.toNat
      else if s.cfg.hexCase = .upper then 0x37 + v.toNat else 0x57 + v.toNat) ∧
    exec (.hex2nib ch) s = .next { s with returned := .nibble v }

/-- BYTE2HEX gives the characters of the two nibbles, high nibble first, and HEX2BYTE gives the byte back
(40_codec.md R104, R105; 20_memory.md R52). -/
def Obligations.ByteRoundTrip : Prop :=
  ∀ (s : State) (b : Byte), ∃ c0 c1 : Byte, exec (.byte2hex b) s = .next { s with returned := .hex2 c0 c1 } ∧
    exec (.nib2hex (b.extractLsb' 4 4)) s = .next { s with returned := .byte c0 } ∧
    exec (.nib2hex (b.extractLsb' 0 4)) s = .next { s with returned := .byte c1 } ∧
    exec (.hex2byte c0 c1) s = .next { s with returned := .byte b }

/-- HEX2BYTE on any two characters is 16 times the first's nibble plus the second's (40_codec.md R106). -/
def Obligations.Hex2byteResult : Prop :=
  ∀ (s : State) (c0 c1 : Byte), ∃ (h l : Nibble) (b : Byte),
    exec (.hex2nib c0) s = .next { s with returned := .nibble h } ∧
    exec (.hex2nib c1) s = .next { s with returned := .nibble l } ∧
    exec (.hex2byte c0 c1) s = .next { s with returned := .byte b } ∧ b.toNat = 16 * h.toNat + l.toNat

/-- HEX2NIB is not injective: the capital and the small letter of one value read alike, and every character that is no hex digit
reads like `'0'`; so NIB2HEX after HEX2NIB gives the character back only for the digits and the letters of the configured
case (40_codec.md R103). -/
def Obligations.Hex2nibNotInjective : Prop :=
  (∀ c : Byte, 0x41 ≤ c.toNat → c.toNat ≤ 0x46 → hexToNib (c + 0x20) = hexToNib c) ∧
  (∀ c : Byte, isHexDigit c = false → hexToNib c = hexToNib 0x30) ∧
  ∀ (hc : HexCase) (c : Byte), nibToHex hc (hexToNib c) = c ↔
    (0x30 ≤ c.toNat ∧ c.toNat ≤ 0x39) ∨ (hc = .upper ∧ 0x41 ≤ c.toNat ∧ c.toNat ≤ 0x46) ∨
      (hc = .lower ∧ 0x61 ≤ c.toNat ∧ c.toNat ≤ 0x66)

/-- PARITY is the exclusive-or of type, node id, command id, datasize and every payload byte (41_parity.md R120), whatever the
order of the payload bytes (R121). That a payload of another length than datasize is refused by name is the model's,
notes/assumptions/10: R120 names it no operand. -/
def Obligations.ParityIsXorOfFields : Prop :=
  ∀ (s : State) (p n c ds : Byte) (payload : List Byte),
    (payload.length = ds.toNat →
      exec (.parity p n c ds payload) s = .next { s with returned := .byte (xorAll (p :: n :: c :: ds :: payload)) } ∧
      ∀ other : List Byte, other.Perm payload → exec (.parity p n c ds other) s = exec (.parity p n c ds payload) s) ∧
    (payload.length ≠ ds.toNat → exec (.parity p n c ds payload) s = .refused .operandOutsideDomain)

/-- ISVALID: the stored parity equals PARITY; equivalently the exclusive-or of all fields with the parity is 0
(41_parity.md R122). -/
def Obligations.IsvalidResult : Prop :=
  ∀ (s : State) (k : Packet), k.payload.length = k.datasize.toNat → ∃ ok : Bool,
    exec (.isvalid k) s = .next { s with returned := .flag ok } ∧
    (ok = true ↔ k.parity = xorAll (k.ptype :: k.nodeId :: k.commandId :: k.datasize :: k.payload)) ∧
    (ok = true ↔ xorAll (k.parity :: k.ptype :: k.nodeId :: k.commandId :: k.datasize :: k.payload) = 0)

/-- A valid packet with exactly one of its byte fields changed by a non-zero difference is not valid
(41_parity.md R123). -/
def Obligations.SingleFieldChangeDetected : Prop :=
  ∀ (s : State) (k : Packet) (d : Byte), exec (.isvalid k) s = .next { s with returned := .flag true } → d ≠ 0 →
    exec (.isvalid { k with ptype := k.ptype ^^^ d }) s = .next { s with returned := .flag false } ∧
    exec (.isvalid { k with nodeId := k.nodeId ^^^ d }) s = .next { s with returned := .flag false } ∧
    exec (.isvalid { k with commandId := k.commandId ^^^ d }) s = .next { s with returned := .flag false } ∧
    exec (.isvalid { k with parity := k.parity ^^^ d }) s = .next { s with returned := .flag false } ∧
    ∀ j, (hj : j < k.payload.length) →
      exec (.isvalid { k with payload := k.payload.set j (k.payload[j] ^^^ d) }) s =
        .next { s with returned := .flag false }

/-- The same difference in two fields is not detected: node id and command id, or two payload bytes
(41_parity.md R124). -/
def Obligations.EqualChangesUndetected : Prop :=
  ∀ (s : State) (k : Packet) (d : Byte), exec (.isvalid k) s = .next { s with returned := .flag true } →
    exec (.isvalid { k with nodeId := k.nodeId ^^^ d, commandId := k.commandId ^^^ d }) s =
      .next { s with returned := .flag true } ∧
    ∀ i j, (hi : i < k.payload.length) → (hj : j < k.payload.length) → i ≠ j →
      exec (.isvalid { k with payload := (k.payload.set i (k.payload[i] ^^^ d)).set j (k.payload[j] ^^^ d) }) s =
        .next { s with returned := .flag true }

/-- Every packet type byte, assigned or not, is accepted as it is and changes nothing (30_encoding.md R78, R79). That a row is an
operation that returns its byte is the model's reading, notes/assumptions/11, and that PT.UNASSIGNED stops by name on an
assigned code, which selects its own row, is the model's refusal, notes/assumptions/10. -/
def Obligations.TypeCodesOpaque : Prop :=
  ∀ s : State,
    exec .ptReply s = .next { s with returned := .typeCode 0x01 } ∧
    exec .ptEvent s = .next { s with returned := .typeCode 0x02 } ∧
    exec .ptArray s = .next { s with returned := .typeCode 0x03 } ∧
    exec .ptValue s = .next { s with returned := .typeCode 0x04 } ∧
    exec .ptRequest s = .next { s with returned := .typeCode 0x05 } ∧
    exec .ptError s = .next { s with returned := .typeCode 0x07 } ∧
    exec .ptReset s = .next { s with returned := .typeCode 0x1F } ∧
    (∀ t : Byte, isAssignedType t = false → exec (.ptUnassigned t) s = .next { s with returned := .typeCode t }) ∧
    (∀ t : Byte, isAssignedType t = true → exec (.ptUnassigned t) s = .refused .operandOutsideDomain) ∧
    ∀ t : Byte, ∃ i : Instr, decode ⟨.ptype, [t], 0⟩ = .ok i ∧ exec i s = .next { s with returned := .typeCode t }

/-- RX.DATA: the byte goes to the tag while `tag_len < 5`, else to the body while there is room, else it is dropped and
counted, saturating; `None` is returned and nothing else changes (42_line_parser.md R132, R134). -/
def Obligations.RxDataStoresOrCounts : Prop :=
  ∀ (s : State) (b : Byte), b ≠ 0x0A → b ≠ 0x0D →
    exec (.rxData b) s = .next
      (if s.tag.length < 5 then
        { s with tag := s.tag ++ [b], hist := s.hist ++ [.rx .none], returned := .rx .none }
      else if s.body.length < s.cfg.bodyCap then
        { s with body := s.body ++ [b], hist := s.hist ++ [.rx .none], returned := .rx .none }
      else
        { s with truncCnt := min (s.truncCnt + 1) (2 ^ s.cfg.wCnt - 1), hist := s.hist ++ [.rx .none],
                 returned := .rx .none })

/-- RX.CR: the byte is discarded; no state element changes, and `None` is returned (42_line_parser.md R135). -/
def Obligations.RxCrTransparent : Prop :=
  ∀ s : State, exec .rxCr s = .next { s with hist := s.hist ++ [.rx .none], returned := .rx .none }

/-- RX.LF: a line whose tag is not exactly `[MSP]` is ignored; otherwise the body is decoded, a packet is stored wholesale
and a failure reported; the line is cleared in every case and nothing else changes (42_line_parser.md R136, R137). -/
def Obligations.RxLfCompletesLine : Prop :=
  ∀ s : State,
    (s.tag ≠ [0x5B, 0x4D, 0x53, 0x50, 0x5D] → exec .rxLf s = .next
      { s with tag := [], body := [], hist := s.hist ++ [.rx .lineIgnored], returned := .rx .lineIgnored }) ∧
    (s.tag = [0x5B, 0x4D, 0x53, 0x50, 0x5D] → ∀ pkt, decodeLine s.body = .ok pkt → exec .rxLf s = .next
      { s with tag := [], body := [], rxPkt := some pkt, hist := s.hist ++ [.rx (.packetAccepted pkt)],
               returned := .rx (.packetAccepted pkt) }) ∧
    (s.tag = [0x5B, 0x4D, 0x53, 0x50, 0x5D] → ∀ e, decodeLine s.body = .fail e → exec .rxLf s = .next
      { s with tag := [], body := [], hist := s.hist ++ [.rx (.decodeError e)], returned := .rx (.decodeError e) })

/-- A decode failure leaves `rx_pkt`, `trunc_cnt`, `tx_pkt`, `te` and `release_at` unchanged, clears the line and returns
its event (60_exceptions.md R216). -/
def Obligations.DecodeFailureEntry : Prop :=
  ∀ (s t : State) (e : LineError), exec .rxLf s = .next t → t.returned = .rx (.decodeError e) →
    t.rxPkt = s.rxPkt ∧ t.tag = [] ∧ t.body = [] ∧ t.truncCnt = s.truncCnt ∧ t.txPkt = s.txPkt ∧ t.te = s.te ∧
      t.releaseAt = s.releaseAt ∧ t.hist = s.hist ++ [.rx (.decodeError e)] ∧ t.cfg = s.cfg ∧ t.pending = s.pending

/-- TAGCMP is true exactly for five characters equal to `[MSP]` (42_line_parser.md R138). That a buffer of another size or a
`tag_len` above 5, which R138 does not give as operands, is refused by name is the model's, notes/assumptions/10. -/
def Obligations.TagcmpExact : Prop :=
  ∀ (s : State) (tag : List Byte) (n : Nat),
    (tag.length = 5 → n ≤ 5 → exec (.tagcmp tag n) s =
      .next { s with returned := .flag (decide (n = 5 ∧ tag = [0x5B, 0x4D, 0x53, 0x50, 0x5D])) }) ∧
    (tag.length ≠ 5 ∨ 5 < n → exec (.tagcmp tag n) s = .refused .operandOutsideDomain)

/-- FRAME: a whole line's characters are ignored, rejected or accepted by their first 5 characters and DECODE of the next
`BODY_CAP`; nothing but the result changes (30_encoding.md R70, R73; 42_line_parser.md R141). That FRAME is a pure
evaluation of a line is the model's choice, notes/assumptions/7. -/
def Obligations.FrameResult : Prop :=
  ∀ (s : State) (line : List Byte), (∀ b ∈ line, b ≠ 0x0A ∧ b ≠ 0x0D) → ∃ r : RxResult,
    exec (.frame line) s = .next { s with returned := .rx r } ∧
    (line.take 5 ≠ [0x5B, 0x4D, 0x53, 0x50, 0x5D] → r = .lineIgnored) ∧
    (line.take 5 = [0x5B, 0x4D, 0x53, 0x50, 0x5D] →
      (∀ pkt, decodeLine ((line.drop 5).take s.cfg.bodyCap) = .ok pkt → r = .packetAccepted pkt) ∧
      (∀ e, decodeLine ((line.drop 5).take s.cfg.bodyCap) = .fail e → r = .decodeError e))

/-- Lines do not interact. From any line boundary, the bytes of a line fed one by one and then LF give what the FRAME row gives
on its characters without the CRs, store exactly what that result says, count the dropped characters, and leave a line
boundary (42_line_parser.md R135, R137, R141, R142; 30_encoding.md R81). That FRAME is a pure evaluation of a line is the
model's choice, notes/assumptions/7; what the bytes on `rx` do is the spec's. -/
def Obligations.LineFedByteByByte : Prop :=
  ∀ (s : State) (line : List Byte) (rest : List Transaction), AtLineBoundary s → 0x0A ∉ line →
    s.truncCnt ≤ 2 ^ s.cfg.wCnt - 1 →
    ∃ (r : RxResult) (t : State),
      exec (.frame (line.filter (· != 0x0D))) s = .next { s with returned := .rx r } ∧
      run (line.length + 1) { s with pending := rxTransactions (line ++ [0x0A]) ++ rest } = .next t ∧
      t = { s with
            pending := rest
            truncCnt := min (s.truncCnt + ((line.filter (· != 0x0D)).length - 5 - s.cfg.bodyCap))
              (2 ^ s.cfg.wCnt - 1)
            rxPkt := (match r with
              | .packetAccepted pkt => some pkt
              | _ => s.rxPkt)
            hist := s.hist ++ List.replicate line.length (.rx .none) ++ [.rx r]
            returned := .rx r }

/-- DECODE completes on every body: MalformedLine exactly for a wrong prefix or a wrong length, ParityMismatch exactly for a line
of the right shape whose digits disagree, and otherwise the packet at the fixed offsets (43_decode.md R150). The exact length
is the spec's own decision D4, and that the separators are skipped its decision D5. That DECODE also takes a body longer than
BODY_CAP, outside R150's operand range, is the model's, notes/assumptions/10. -/
def Obligations.DecodeResultAtFixedOffsets : Prop :=
  ∀ (s : State) (body : List Byte), ∃ r : DecodeResult,
    exec (.decode body) s = .next { s with returned := .decoded r } ∧
    let H := fun i => hexToByte (byteAt body i) (byteAt body (i + 1))
    let ds := (H 10).toNat
    let payload := (List.range ds).map (fun i => H (13 + 2 * i))
    let malformed := body.length < 1 ∨ body[0]? ≠ some 0x54 ∨ body.length < 12 ∨ body.length ≠ 16 + 2 * ds
    let checked := xorAll (H 1 :: H 4 :: H 7 :: H 10 :: payload)
    (r = .fail .malformedLine ↔ malformed) ∧
    (r = .fail .parityMismatch ↔ ¬malformed ∧ checked ≠ H (14 + 2 * ds)) ∧
    (∀ pkt, r = .ok pkt ↔ ¬malformed ∧ checked = H (14 + 2 * ds) ∧
      pkt = { ptype := H 1, nodeId := H 4, commandId := H 7, datasize := H 10, payload := payload,
              parity := H (14 + 2 * ds) })

/-- Two bodies of one length that differ only at the separator offsets 3, 6, 9, 12 and `13 + 2*ds` decode alike
(43_decode.md R158, 30_encoding.md R73; the spec's own decision D5). The bodies may be longer than BODY_CAP,
notes/assumptions/10. -/
def Obligations.SeparatorsNotCompared : Prop :=
  ∀ (s : State) (a b : List Byte), a.length = b.length →
    (∀ k, k ≠ 3 → k ≠ 6 → k ≠ 9 → k ≠ 12 → k ≠ 13 + 2 * (hexToByte (byteAt a 10) (byteAt a 11)).toNat → a[k]? = b[k]?) →
    exec (.decode a) s = exec (.decode b) s

/-- In a body, writing `'0'` over a character that is no hex digit, or the capital over a small hex letter, changes no decode
result, except at the prefix (30_encoding.md R75, R76; 40_codec.md R107; 43_decode.md R159). The body may be longer than
BODY_CAP, notes/assumptions/10. -/
def Obligations.HexFallbackUndetected : Prop :=
  ∀ (s : State) (body : List Byte) (k : Nat), 1 ≤ k → (hk : k < body.length) →
    (isHexDigit body[k] = false → exec (.decode (body.set k 0x30)) s = exec (.decode body) s) ∧
    (0x61 ≤ body[k].toNat → body[k].toNat ≤ 0x66 →
      exec (.decode (body.set k (body[k] - 0x20))) s = exec (.decode body) s)

/-- A packet that DECODE gives for a line that fitted the buffer is valid, has `datasize` payload bytes, and its datasize is
at most `RX_PAYLOAD_MAX` (10_state.md R24; 43_decode.md R153, R156; 70_reset_and_hazards.md R257). -/
def Obligations.DecodedPacketIsGood : Prop :=
  ∀ (c : Config) (body : List Byte) (pkt : Packet), body.length ≤ c.bodyCap → decodeLine body = .ok pkt →
    PacketGood pkt ∧ body.length = 16 + 2 * pkt.datasize.toNat ∧
      ∃ m, c.rxPayloadMax = some m ∧ pkt.datasize.toNat ≤ m

/-- DECODE of the body part of ENCODE gives back the fields, with PARITY as the parity, for either letter case (43_decode.md R150,
44_transmit.md R170). It is R162 without its premise `16 + 2*ds <= BODY_CAP`: that DECODE takes a body longer than BODY_CAP is
the model's, notes/assumptions/10. -/
def Obligations.DecodeInvertsEncode : Prop :=
  ∀ (s : State) (p n c : Byte) (payload : List Byte), payload.length ≤ 255 → ∃ frame : List Byte,
    exec (.encode p n c payload) s = .next { s with returned := .bytes frame } ∧
    exec (.decode (frame.drop 5)) s = .next { s with returned := .decoded (.ok
      { ptype := p, nodeId := n, commandId := c, datasize := BitVec.ofNat 8 payload.length, payload := payload,
        parity := xorAll (p :: n :: c :: BitVec.ofNat 8 payload.length :: payload) }) }

/-- ENCODE: the tag, the letters T N I S P Q each followed by what BYTE2HEX gives for its field (the payload's bytes in index order
after the P, PARITY after the Q); `21 + 2*ds` characters, none of them CR or LF (44_transmit.md R170, R171; 30_encoding.md
R70, R72). That a payload of more than 255 bytes, outside R170's operand range, is refused by name is the model's,
notes/assumptions/10: R180 says it of SEND. -/
def Obligations.EncodeLayout : Prop :=
  ∀ (s : State) (p n c : Byte) (payload : List Byte),
    (payload.length ≤ 255 → ∃ (X : Byte → List Byte) (frame : List Byte),
      (∀ b : Byte, ∃ c0 c1 : Byte, X b = [c0, c1] ∧
        exec (.byte2hex b) s = .next { s with returned := .hex2 c0 c1 }) ∧
      exec (.encode p n c payload) s = .next { s with returned := .bytes frame } ∧
      frame = [0x5B, 0x4D, 0x53, 0x50, 0x5D] ++ [0x54] ++ X p ++ [0x4E] ++ X n ++ [0x49] ++ X c ++
        [0x53] ++ X (BitVec.ofNat 8 payload.length) ++ [0x50] ++ payload.flatMap X ++
        [0x51] ++ X (xorAll (p :: n :: c :: BitVec.ofNat 8 payload.length :: payload)) ∧
      frame.length = 21 + 2 * payload.length ∧ ∀ b ∈ frame, b ≠ 0x0A ∧ b ≠ 0x0D) ∧
    (255 < payload.length → exec (.encode p n c payload) s = .refused .payloadTooLong)

/-- SEND, whole: it rebuilds `tx_pkt`, asserts TE and schedules its release only when configured, and emits ENCODE's frame and
`TERM` after the assertion; the receive path is untouched (44_transmit.md R175 to R179, R183; 45_te_timer.md R193; 10_state.md
R33). The node id from `cfg`, the reduced sum and the instant the hold starts are the spec's own decisions D14, D10 and D22. -/
def Obligations.SendEffect : Prop :=
  ∀ (s : State) (p c : Byte) (payload : List Byte) (now : Nat), payload.length ≤ 255 →
    (s.cfg.teEn = true → 1 ≤ s.cfg.baud) → s.cfg.timeFits now = true → ∃ frame : List Byte,
    exec (.encode p s.cfg.nodeId c payload) s = .next { s with returned := .bytes frame } ∧
    exec (.send p c payload now) s = .next
      { s with
        txPkt := { ptype := p, nodeId := s.cfg.nodeId, commandId := c, datasize := BitVec.ofNat 8 payload.length,
                   payload := payload,
                   parity := xorAll (p :: s.cfg.nodeId :: c :: BitVec.ofNat 8 payload.length :: payload) }
        te := s.te || s.cfg.teEn
        releaseAt := if s.cfg.teEn then
            (match s.cfg.wTime with
            | none => now + holdOf s payload.length
            | some w => (now + holdOf s payload.length) % 2 ^ w)
          else s.releaseAt
        hist := s.hist ++ (if s.cfg.teEn && !s.te then [.teAssert] else []) ++ [.tx (frame ++ s.cfg.term)]
        returned := .nothing }

/-- SEND stops by name on a payload of more than 255 bytes, and on a baud rate of 0 where TE is configured; without TE any baud
rate is accepted (44_transmit.md R178, R180; 45_te_timer.md R192; the spec's own decisions D18 and D11). That the payload is
checked before the baud rate is the model's, notes/assumptions/10. -/
def Obligations.SendDomain : Prop :=
  ∀ (s : State) (p c : Byte) (payload : List Byte) (now : Nat),
    (255 < payload.length → exec (.send p c payload now) s = .refused .payloadTooLong) ∧
    (payload.length ≤ 255 → s.cfg.teEn = true → s.cfg.baud = 0 →
      exec (.send p c payload now) s = .refused .baudZero) ∧
    (payload.length ≤ 255 → s.cfg.teEn = false → s.cfg.timeFits now = true →
      ∀ baud : Nat, ∃ t, exec (.send p c payload now) { s with cfg := { s.cfg with baud := baud } } = .next t ∧
        t.te = s.te ∧ t.releaseAt = s.releaseAt)

/-- HOLDCALC is the integer quotient of 10,000,000 by the baud rate times the character count, never reduced; it is below the real
time of that many characters by less than one microsecond each (45_te_timer.md R190, R192, R194; the quotient first is the
spec's own decision D9). That HOLDCALC itself is refused by name on a baud rate of 0, which R190 puts outside its domain, is the
model's, notes/assumptions/10. -/
def Obligations.HoldcalcResult : Prop :=
  ∀ (s : State) (baud : Nat) (ds : Byte),
    (1 ≤ baud → ∃ q rem hold : Nat, exec (.holdcalc baud ds) s = .next { s with returned := .number hold } ∧
      10000000 = baud * q + rem ∧ rem < baud ∧ hold = q * (2 * ds.toNat + 5 + s.cfg.fixedOverhead) ∧
      hold * baud ≤ 10000000 * (2 * ds.toNat + 5 + s.cfg.fixedOverhead) ∧
      10000000 * (2 * ds.toNat + 5 + s.cfg.fixedOverhead) <
        (hold + (2 * ds.toNat + 5 + s.cfg.fixedOverhead)) * baud ∧
      (10000000 < baud → hold = 0)) ∧
    exec (.holdcalc 0 ds) s = .refused .baudZero

/-- TICK de-asserts TE exactly when it is asserted and `now >= release_at`, and otherwise changes nothing (45_te_timer.md R195); the
inclusive comparison is the spec's own decision D12. That a `now` of more than `W_TIME` bits, which R195 does not give as an
operand, is refused by name is the model's, notes/assumptions/10. -/
def Obligations.TickReleasesWhenDue : Prop :=
  ∀ (s : State) (now : Nat),
    (s.cfg.timeFits now = true → exec (.tick now) s = .next
      (if s.te = true ∧ s.releaseAt ≤ now then
        { s with te := false, hist := s.hist ++ [.teRelease], returned := .nothing }
      else { s with returned := .nothing })) ∧
    (s.cfg.timeFits now = false → exec (.tick now) s = .refused .timeTooWide)

/-- TE is held: after a SEND whose deadline does not wrap, through any operations that are no SEND and no RESET and whose TICKs come
before the deadline, TE stays asserted with that deadline; then a TICK releases it exactly at or after the deadline
(45_te_timer.md R193, R195, R199; 70_reset_and_hazards.md R253). The plain deadline and the inclusive comparison are the spec's
own decisions D10 and D12; the queue of operations is the model's, notes/assumptions/4. -/
def Obligations.TeHeldUntilDeadline : Prop :=
  ∀ (s s1 : State) (p c : Byte) (payload : List Byte) (now : Nat), s.cfg.teEn = true →
    exec (.send p c payload now) s = .next s1 → s.cfg.timeFits (now + holdOf s payload.length) = true →
    s1.te = true ∧ s1.releaseAt = now + holdOf s payload.length ∧
    ∀ (ops rest : List Transaction) (t : State),
      (∀ o ∈ ops, ∀ i, decode o = .ok i → (∀ p c pl n, i ≠ .send p c pl n) ∧ i ≠ .reset ∧
        ∀ n, i = .tick n → n < now + holdOf s payload.length) →
      run ops.length { s1 with pending := ops ++ rest } = .next t →
      t.te = true ∧ t.releaseAt = now + holdOf s payload.length ∧ t.pending = rest ∧
      ∀ n, s.cfg.timeFits n = true → ∃ u, exec (.tick n) t = .next u ∧
        (u.te = false ↔ now + holdOf s payload.length ≤ n)

/-- RESET completes from every state: lengths and counter 0, no inbound packet, a zero outbound packet, TE de-asserted at once;
the configuration and the histories stay, and a TE that was asserted is recorded as released
(70_reset_and_hazards.md R240, R241, R242). The values are the spec's own decision D13. -/
def Obligations.ResetEffect : Prop :=
  ∀ s : State, ∃ t, exec .reset s = .next t ∧ t.tag = [] ∧ t.body = [] ∧ t.truncCnt = 0 ∧ t.rxPkt = none ∧
    t.txPkt = { ptype := 0, nodeId := 0, commandId := 0, datasize := 0, payload := [], parity := 0 } ∧
    t.te = false ∧ t.cfg = s.cfg ∧ t.pending = s.pending ∧ t.returned = .nothing ∧
    t.hist = s.hist ++ (if s.te then [.teRelease] else []) ∧ Inv { t with hist := [] }

/-- The state after power-on is the state after RESET (10_state.md R20; 70_reset_and_hazards.md R240, R241): the elements hold
RESET's values and RESET changes nothing. `release_at` and the instance in `cfg` are the model's choice,
notes/assumptions/2 and 3, and are not stated. -/
def Obligations.PowerOnIsReset : Prop :=
  exec .reset State.reset = .next State.reset ∧ State.reset.tag = [] ∧ State.reset.body = [] ∧
    State.reset.truncCnt = 0 ∧ State.reset.rxPkt = none ∧ State.reset.txPkt = zeroPacket ∧ State.reset.te = false ∧
    State.reset.hist = []

/-- The invariant holds right after reset. -/
def Obligations.InvAtReset : Prop := Inv State.reset

/-- Every step keeps the invariant: buffer lengths within capacity, the body empty until the tag is full, no stored CR or LF,
a counter of `W_CNT` bits, valid packet registers, TE only where configured with a deadline of `W_TIME` bits, and a `te`
output that agrees with its history (10_state.md R20, R24, R25, R33; 20_memory.md R59; 44_transmit.md R178). -/
def Obligations.StepKeepsInv : Prop := ∀ s s' : State, Inv s → step s = .next s' → Inv s'

/-- The flags of the block, complete: `te` is set by SEND where TE is configured and by nothing else, and cleared by a due TICK
and by RESET and by nothing else; `rx_pkt.valid` is set by a successful RX.LF and by nothing else, and cleared by RESET only;
both are false at reset (10_state.md R27). -/
def Obligations.FlagWriters : Prop :=
  State.reset.te = false ∧ State.reset.rxValid = false ∧
  ∀ (i : Instr) (s t : State), exec i s = .next t →
    (s.te = false → t.te = true → s.cfg.teEn = true ∧ ∃ p c payload now, i = .send p c payload now) ∧
    (∀ p c payload now, i = .send p c payload now → s.cfg.teEn = true → t.te = true) ∧
    (s.te = true → t.te = false → i = .reset ∨ ∃ now, i = .tick now ∧ s.releaseAt ≤ now) ∧
    (∀ now, i = .tick now → s.releaseAt ≤ now → t.te = false) ∧
    (s.rxValid = false → t.rxValid = true → i = .rxLf ∧ ∃ pkt, t.returned = .rx (.packetAccepted pkt)) ∧
    (i = .rxLf → ∀ pkt, t.returned = .rx (.packetAccepted pkt) → t.rxValid = true) ∧
    (s.rxValid = true → t.rxValid = false → i = .reset) ∧
    (i = .reset → t.te = false ∧ t.rxValid = false)

/-- RESET apart, only SEND writes `tx_pkt`, and every SEND does, all fields in one step; only a successful RX.LF writes
`rx_pkt`, and every one does, wholesale, with the packet it returns (10_state.md R22). -/
def Obligations.PacketRegisterWriters : Prop :=
  ∀ (i : Instr) (s t : State), exec i s = .next t → i ≠ .reset →
    (t.txPkt ≠ s.txPkt → ∃ p c payload now, i = .send p c payload now) ∧
    (∀ p c payload now, i = .send p c payload now → t.txPkt =
      { ptype := p, nodeId := s.cfg.nodeId, commandId := c, datasize := BitVec.ofNat 8 payload.length,
        payload := payload, parity := xorAll (p :: s.cfg.nodeId :: c :: BitVec.ofNat 8 payload.length :: payload) }) ∧
    (t.rxPkt ≠ s.rxPkt → i = .rxLf ∧ ∃ pkt, t.rxPkt = some pkt ∧ t.returned = .rx (.packetAccepted pkt)) ∧
    (i = .rxLf → ∀ pkt, t.returned = .rx (.packetAccepted pkt) → t.rxPkt = some pkt)

/-- Who writes the other elements: the line position is written only by RX.DATA, RX.LF and RESET, `trunc_cnt` only by RX.DATA and
RESET, `release_at` only by SEND; `cfg` and the pending transactions by none; the output history only grows
(10_state.md R20; 70_reset_and_hazards.md R241). That RESET leaves `release_at` is the model's choice where the spec says
"no value", notes/assumptions/3; `pending` is the model's own, notes/assumptions/4. -/
def Obligations.RegisterWriters : Prop :=
  ∀ (i : Instr) (s t : State), exec i s = .next t →
    (t.tag ≠ s.tag ∨ t.body ≠ s.body → i = .rxLf ∨ i = .reset ∨ ∃ b, i = .rxData b) ∧
    (t.truncCnt ≠ s.truncCnt → i = .reset ∨ ∃ b, i = .rxData b) ∧
    (t.releaseAt ≠ s.releaseAt → ∃ p c payload now, i = .send p c payload now) ∧
    t.cfg = s.cfg ∧ t.pending = s.pending ∧ s.hist <+: t.hist

/-- Bytes of the four buffers. RX.DATA stores to the index its line position gives and to no other; RX.LF leaves no line byte, and
changes the inbound payload only by the packet it accepts; SEND leaves its payload in the outbound buffer; every other
operation but RESET leaves every byte of every buffer (20_memory.md R50, R57, R59). -/
def Obligations.BufferFrame : Prop :=
  ∀ (i : Instr) (s t : State), exec i s = .next t →
    (∀ b, i = .rxData b → ∀ sp a, t.readByte sp a =
      if sp = .tag ∧ s.tagLen < 5 ∧ a = s.tagLen then some b
      else if sp = .body ∧ 5 ≤ s.tagLen ∧ s.bodyLen < s.cfg.bodyCap ∧ a = s.bodyLen then some b
      else s.readByte sp a) ∧
    (i = .rxLf → ∀ a, t.readByte .tag a = none ∧ t.readByte .body a = none ∧
      t.readByte .txPayload a = s.readByte .txPayload a ∧
      ((∀ pkt, t.returned ≠ .rx (.packetAccepted pkt)) → t.readByte .rxPayload a = s.readByte .rxPayload a)) ∧
    (∀ p c payload now, i = .send p c payload now → ∀ a, t.readByte .txPayload a = payload[a]? ∧
      ∀ sp, sp ≠ .txPayload → t.readByte sp a = s.readByte sp a) ∧
    (i ≠ .rxLf → i ≠ .reset → (∀ b, i ≠ .rxData b) → (∀ p c payload now, i ≠ .send p c payload now) →
      ∀ sp a, t.readByte sp a = s.readByte sp a)

/-- The pure operations read and write no state: what they leave differs only in the returned value, and what they return
depends only on the configuration. For the ten pure operations of 00_scope.md R5 this is its rule. The statement also takes in
the FRAME, HEX and PT rows, which R5 does not list: that FRAME is a pure evaluation of a line is the model's choice,
notes/assumptions/7, and that a HEX or PT row is an operation that returns its nibble or byte and changes nothing is the
model's reading, notes/assumptions/11. The field that keeps the returned value is the model's own, notes/assumptions/9. -/
def Obligations.PureOperationsFrame : Prop :=
  ∀ (i : Instr) (s t : State), ¬IsReceive i → ¬IsTransmit i → i ≠ .reset → exec i s = .next t →
    t = { s with returned := t.returned } ∧
    ∀ u : State, u.cfg = s.cfg → exec i u = .next { u with returned := t.returned }

/-- Every operation inside its domain completes: a well-formed instruction has a next state, SEND under a baud rate of 0 with TE
configured apart (00_scope.md R5; 60_exceptions.md R217). What counts as the domain of an operand the rules give no effect is
notes/assumptions/10. The statement also takes in the FRAME, HEX and PT rows, which R5 does not list as operations: that they
are operations is the model's, notes/assumptions/7 and 11. -/
def Obligations.WellFormedCompletes : Prop :=
  ∀ (i : Instr) (s : State), i.wellFormed s.cfg = true →
    (∀ p c payload now, i = .send p c payload now → s.cfg.teEn = true → 1 ≤ s.cfg.baud) → ∃ t, exec i s = .next t

/-- Every `rx` transaction returns exactly one result and records it (00_scope.md R7; 10_state.md R33); the result of RX.DATA
and RX.CR is `None`, and that of RX.LF is never `None`. -/
def Obligations.OneResultPerRxTransaction : Prop :=
  ∀ (i : Instr) (s t : State), IsReceive i → exec i s = .next t →
    ∃ r : RxResult, t.returned = .rx r ∧ t.hist = s.hist ++ [.rx r] ∧ (r = .none ↔ i ≠ .rxLf)

/-- The receive and transmit paths are independent: an `rx` operation and a SEND or TICK that both complete can be done in either
order, and leave the same registers and the same sequence on each output (20_memory.md R62). -/
def Obligations.PathsIndependent : Prop :=
  ∀ (i j : Instr) (s a b : State), IsReceive i → IsTransmit j → exec i s = .next a → exec j s = .next b →
    ∃ ab ba : State, exec j a = .next ab ∧ exec i b = .next ba ∧
      ab.tag = ba.tag ∧ ab.body = ba.body ∧ ab.truncCnt = ba.truncCnt ∧ ab.rxPkt = ba.rxPkt ∧ ab.txPkt = ba.txPkt ∧
      ab.te = ba.te ∧ ab.releaseAt = ba.releaseAt ∧ ab.cfg = ba.cfg ∧ evtOf ab.hist = evtOf ba.hist ∧
      txOf ab.hist = txOf ba.hist

/-- What one node sends a peer accepts: the bytes of a SEND, fed to a peer at a line boundary whose body buffer holds them, end in
`PacketAccepted` of exactly the sender's `tx_pkt`, for any sender whose `TERM` is CRs and then LF
(43_decode.md R162; 70_reset_and_hazards.md R246). -/
def Obligations.PeerAcceptsWhatIsSent : Prop :=
  ∀ (sender sent peer : State) (p c : Byte) (payload crs : List Byte) (now : Nat) (rest : List Transaction),
    exec (.send p c payload now) sender = .next sent → (∀ b ∈ crs, b = 0x0D) → sender.cfg.term = crs ++ [0x0A] →
    AtLineBoundary peer → 16 + 2 * payload.length ≤ peer.cfg.bodyCap → peer.truncCnt ≤ 2 ^ peer.cfg.wCnt - 1 →
    ∃ (bytes : List Byte) (t : State), sent.hist.getLast? = some (.tx bytes) ∧
      run bytes.length { peer with pending := rxTransactions bytes ++ rest } = .next t ∧
      t.returned = .rx (.packetAccepted sent.txPkt) ∧ t.rxPkt = some sent.txPkt ∧ t.truncCnt = peer.truncCnt ∧
      AtLineBoundary t ∧ t.pending = rest

/-- Truncation is no reason to reject a line: a line whose first characters are a frame that fills the body buffer exactly is
accepted by the FRAME row, whatever characters follow. This is the last part of 42_line_parser.md R142 for FRAME, the pure
evaluation of a line, which is the model's choice, notes/assumptions/7; R142 speaks of bytes on `rx`, for which
LineFedByteByByte (O23) says that they give what FRAME gives. -/
def Obligations.TruncatedLineAccepted : Prop :=
  ∀ (s : State) (p n c : Byte) (payload frame extra : List Byte),
    exec (.encode p n c payload) s = .next { s with returned := .bytes frame } →
    s.cfg.bodyCap = 16 + 2 * payload.length → (∀ b ∈ extra, b ≠ 0x0A ∧ b ≠ 0x0D) →
    ∃ pkt : Packet, exec (.frame (frame ++ extra)) s = .next { s with returned := .rx (.packetAccepted pkt) } ∧
      pkt.ptype = p ∧ pkt.nodeId = n ∧ pkt.commandId = c ∧ pkt.datasize = BitVec.ofNat 8 payload.length ∧
      pkt.payload = payload ∧ pkt.parity = xorAll (p :: n :: c :: BitVec.ofNat 8 payload.length :: payload)
end

