-- ==== Sys2Proof/Laws/State.lean ====
section
/-! SUPPORT. One lemma per field per named update of the state, so that no proof unfolds a record update. -/

namespace Sys2Proof.Machine

/-- Writing one byte at the end of a buffer appends it. -/
theorem memWrite_end (buf : List Byte) (b : Byte) : memWrite buf buf.length [b] = buf ++ [b] := by
  simp [memWrite]

/-- Reading a buffer from 0 to its length gives all of it. -/
theorem memRead_all (buf : List Byte) : memRead buf 0 buf.length = buf := by
  simp [memRead]

@[simp] theorem State.returning_cfg (s : State) (r : Returned) : (s.returning r).cfg = s.cfg := rfl
@[simp] theorem State.returning_tag (s : State) (r : Returned) : (s.returning r).tag = s.tag := rfl
@[simp] theorem State.returning_body (s : State) (r : Returned) : (s.returning r).body = s.body := rfl
@[simp] theorem State.returning_truncCnt (s : State) (r : Returned) : (s.returning r).truncCnt = s.truncCnt := rfl
@[simp] theorem State.returning_rxPkt (s : State) (r : Returned) : (s.returning r).rxPkt = s.rxPkt := rfl
@[simp] theorem State.returning_txPkt (s : State) (r : Returned) : (s.returning r).txPkt = s.txPkt := rfl
@[simp] theorem State.returning_te (s : State) (r : Returned) : (s.returning r).te = s.te := rfl
@[simp] theorem State.returning_releaseAt (s : State) (r : Returned) : (s.returning r).releaseAt = s.releaseAt := rfl
@[simp] theorem State.returning_hist (s : State) (r : Returned) : (s.returning r).hist = s.hist := rfl
@[simp] theorem State.returning_returned (s : State) (r : Returned) : (s.returning r).returned = r := rfl
@[simp] theorem State.returning_pending (s : State) (r : Returned) : (s.returning r).pending = s.pending := rfl

@[simp] theorem State.record_cfg (s : State) (e : Event) : (s.record e).cfg = s.cfg := rfl
@[simp] theorem State.record_tag (s : State) (e : Event) : (s.record e).tag = s.tag := rfl
@[simp] theorem State.record_body (s : State) (e : Event) : (s.record e).body = s.body := rfl
@[simp] theorem State.record_truncCnt (s : State) (e : Event) : (s.record e).truncCnt = s.truncCnt := rfl
@[simp] theorem State.record_rxPkt (s : State) (e : Event) : (s.record e).rxPkt = s.rxPkt := rfl
@[simp] theorem State.record_txPkt (s : State) (e : Event) : (s.record e).txPkt = s.txPkt := rfl
@[simp] theorem State.record_te (s : State) (e : Event) : (s.record e).te = s.te := rfl
@[simp] theorem State.record_releaseAt (s : State) (e : Event) : (s.record e).releaseAt = s.releaseAt := rfl
@[simp] theorem State.record_hist (s : State) (e : Event) : (s.record e).hist = s.hist ++ [e] := rfl
@[simp] theorem State.record_returned (s : State) (e : Event) : (s.record e).returned = s.returned := rfl
@[simp] theorem State.record_pending (s : State) (e : Event) : (s.record e).pending = s.pending := rfl

@[simp] theorem State.endRx_cfg (s : State) (r : RxResult) : (s.endRx r).cfg = s.cfg := rfl
@[simp] theorem State.endRx_tag (s : State) (r : RxResult) : (s.endRx r).tag = s.tag := rfl
@[simp] theorem State.endRx_body (s : State) (r : RxResult) : (s.endRx r).body = s.body := rfl
@[simp] theorem State.endRx_truncCnt (s : State) (r : RxResult) : (s.endRx r).truncCnt = s.truncCnt := rfl
@[simp] theorem State.endRx_rxPkt (s : State) (r : RxResult) : (s.endRx r).rxPkt = s.rxPkt := rfl
@[simp] theorem State.endRx_txPkt (s : State) (r : RxResult) : (s.endRx r).txPkt = s.txPkt := rfl
@[simp] theorem State.endRx_te (s : State) (r : RxResult) : (s.endRx r).te = s.te := rfl
@[simp] theorem State.endRx_releaseAt (s : State) (r : RxResult) : (s.endRx r).releaseAt = s.releaseAt := rfl
@[simp] theorem State.endRx_hist (s : State) (r : RxResult) : (s.endRx r).hist = s.hist ++ [.rx r] := rfl
@[simp] theorem State.endRx_returned (s : State) (r : RxResult) : (s.endRx r).returned = .rx r := rfl
@[simp] theorem State.endRx_pending (s : State) (r : RxResult) : (s.endRx r).pending = s.pending := rfl

@[simp] theorem State.storeTag_cfg (s : State) (b : Byte) : (s.storeTag b).cfg = s.cfg := rfl
@[simp] theorem State.storeTag_tag (s : State) (b : Byte) : (s.storeTag b).tag = s.tag ++ [b] := memWrite_end _ _
@[simp] theorem State.storeTag_body (s : State) (b : Byte) : (s.storeTag b).body = s.body := rfl
@[simp] theorem State.storeTag_truncCnt (s : State) (b : Byte) : (s.storeTag b).truncCnt = s.truncCnt := rfl
@[simp] theorem State.storeTag_rxPkt (s : State) (b : Byte) : (s.storeTag b).rxPkt = s.rxPkt := rfl
@[simp] theorem State.storeTag_txPkt (s : State) (b : Byte) : (s.storeTag b).txPkt = s.txPkt := rfl
@[simp] theorem State.storeTag_te (s : State) (b : Byte) : (s.storeTag b).te = s.te := rfl
@[simp] theorem State.storeTag_releaseAt (s : State) (b : Byte) : (s.storeTag b).releaseAt = s.releaseAt := rfl
@[simp] theorem State.storeTag_hist (s : State) (b : Byte) : (s.storeTag b).hist = s.hist := rfl
@[simp] theorem State.storeTag_returned (s : State) (b : Byte) : (s.storeTag b).returned = s.returned := rfl
@[simp] theorem State.storeTag_pending (s : State) (b : Byte) : (s.storeTag b).pending = s.pending := rfl

@[simp] theorem State.storeBody_cfg (s : State) (b : Byte) : (s.storeBody b).cfg = s.cfg := rfl
@[simp] theorem State.storeBody_tag (s : State) (b : Byte) : (s.storeBody b).tag = s.tag := rfl
@[simp] theorem State.storeBody_body (s : State) (b : Byte) : (s.storeBody b).body = s.body ++ [b] := memWrite_end _ _
@[simp] theorem State.storeBody_truncCnt (s : State) (b : Byte) : (s.storeBody b).truncCnt = s.truncCnt := rfl
@[simp] theorem State.storeBody_rxPkt (s : State) (b : Byte) : (s.storeBody b).rxPkt = s.rxPkt := rfl
@[simp] theorem State.storeBody_txPkt (s : State) (b : Byte) : (s.storeBody b).txPkt = s.txPkt := rfl
@[simp] theorem State.storeBody_te (s : State) (b : Byte) : (s.storeBody b).te = s.te := rfl
@[simp] theorem State.storeBody_releaseAt (s : State) (b : Byte) : (s.storeBody b).releaseAt = s.releaseAt := rfl
@[simp] theorem State.storeBody_hist (s : State) (b : Byte) : (s.storeBody b).hist = s.hist := rfl
@[simp] theorem State.storeBody_returned (s : State) (b : Byte) : (s.storeBody b).returned = s.returned := rfl
@[simp] theorem State.storeBody_pending (s : State) (b : Byte) : (s.storeBody b).pending = s.pending := rfl

@[simp] theorem State.countDropped_cfg (s : State) : (s.countDropped).cfg = s.cfg := rfl
@[simp] theorem State.countDropped_tag (s : State) : (s.countDropped).tag = s.tag := rfl
@[simp] theorem State.countDropped_body (s : State) : (s.countDropped).body = s.body := rfl
@[simp] theorem State.countDropped_truncCnt (s : State) : (s.countDropped).truncCnt = saturatingSucc s.cfg.wCnt s.truncCnt := rfl
@[simp] theorem State.countDropped_rxPkt (s : State) : (s.countDropped).rxPkt = s.rxPkt := rfl
@[simp] theorem State.countDropped_txPkt (s : State) : (s.countDropped).txPkt = s.txPkt := rfl
@[simp] theorem State.countDropped_te (s : State) : (s.countDropped).te = s.te := rfl
@[simp] theorem State.countDropped_releaseAt (s : State) : (s.countDropped).releaseAt = s.releaseAt := rfl
@[simp] theorem State.countDropped_hist (s : State) : (s.countDropped).hist = s.hist := rfl
@[simp] theorem State.countDropped_returned (s : State) : (s.countDropped).returned = s.returned := rfl
@[simp] theorem State.countDropped_pending (s : State) : (s.countDropped).pending = s.pending := rfl

@[simp] theorem State.clearLine_cfg (s : State) : (s.clearLine).cfg = s.cfg := rfl
@[simp] theorem State.clearLine_tag (s : State) : (s.clearLine).tag = [] := rfl
@[simp] theorem State.clearLine_body (s : State) : (s.clearLine).body = [] := rfl
@[simp] theorem State.clearLine_truncCnt (s : State) : (s.clearLine).truncCnt = s.truncCnt := rfl
@[simp] theorem State.clearLine_rxPkt (s : State) : (s.clearLine).rxPkt = s.rxPkt := rfl
@[simp] theorem State.clearLine_txPkt (s : State) : (s.clearLine).txPkt = s.txPkt := rfl
@[simp] theorem State.clearLine_te (s : State) : (s.clearLine).te = s.te := rfl
@[simp] theorem State.clearLine_releaseAt (s : State) : (s.clearLine).releaseAt = s.releaseAt := rfl
@[simp] theorem State.clearLine_hist (s : State) : (s.clearLine).hist = s.hist := rfl
@[simp] theorem State.clearLine_returned (s : State) : (s.clearLine).returned = s.returned := rfl
@[simp] theorem State.clearLine_pending (s : State) : (s.clearLine).pending = s.pending := rfl

@[simp] theorem State.acceptPacket_cfg (s : State) (p : Packet) : (s.acceptPacket p).cfg = s.cfg := rfl
@[simp] theorem State.acceptPacket_tag (s : State) (p : Packet) : (s.acceptPacket p).tag = s.tag := rfl
@[simp] theorem State.acceptPacket_body (s : State) (p : Packet) : (s.acceptPacket p).body = s.body := rfl
@[simp] theorem State.acceptPacket_truncCnt (s : State) (p : Packet) : (s.acceptPacket p).truncCnt = s.truncCnt := rfl
@[simp] theorem State.acceptPacket_rxPkt (s : State) (p : Packet) : (s.acceptPacket p).rxPkt = some p := rfl
@[simp] theorem State.acceptPacket_txPkt (s : State) (p : Packet) : (s.acceptPacket p).txPkt = s.txPkt := rfl
@[simp] theorem State.acceptPacket_te (s : State) (p : Packet) : (s.acceptPacket p).te = s.te := rfl
@[simp] theorem State.acceptPacket_releaseAt (s : State) (p : Packet) : (s.acceptPacket p).releaseAt = s.releaseAt := rfl
@[simp] theorem State.acceptPacket_hist (s : State) (p : Packet) : (s.acceptPacket p).hist = s.hist := rfl
@[simp] theorem State.acceptPacket_returned (s : State) (p : Packet) : (s.acceptPacket p).returned = s.returned := rfl
@[simp] theorem State.acceptPacket_pending (s : State) (p : Packet) : (s.acceptPacket p).pending = s.pending := rfl

@[simp] theorem State.reportFailure_cfg (s : State) (e : LineError) : (s.reportFailure e).cfg = s.cfg := rfl
@[simp] theorem State.reportFailure_tag (s : State) (e : LineError) : (s.reportFailure e).tag = [] := rfl
@[simp] theorem State.reportFailure_body (s : State) (e : LineError) : (s.reportFailure e).body = [] := rfl
@[simp] theorem State.reportFailure_truncCnt (s : State) (e : LineError) : (s.reportFailure e).truncCnt = s.truncCnt := rfl
@[simp] theorem State.reportFailure_rxPkt (s : State) (e : LineError) : (s.reportFailure e).rxPkt = s.rxPkt := rfl
@[simp] theorem State.reportFailure_txPkt (s : State) (e : LineError) : (s.reportFailure e).txPkt = s.txPkt := rfl
@[simp] theorem State.reportFailure_te (s : State) (e : LineError) : (s.reportFailure e).te = s.te := rfl
@[simp] theorem State.reportFailure_releaseAt (s : State) (e : LineError) : (s.reportFailure e).releaseAt = s.releaseAt := rfl
@[simp] theorem State.reportFailure_hist (s : State) (e : LineError) : (s.reportFailure e).hist = s.hist ++ [.rx (.decodeError e)] := rfl
@[simp] theorem State.reportFailure_returned (s : State) (e : LineError) : (s.reportFailure e).returned = .rx (.decodeError e) := rfl
@[simp] theorem State.reportFailure_pending (s : State) (e : LineError) : (s.reportFailure e).pending = s.pending := rfl

@[simp] theorem State.setTxPacket_cfg (s : State) (p : Packet) : (s.setTxPacket p).cfg = s.cfg := rfl
@[simp] theorem State.setTxPacket_tag (s : State) (p : Packet) : (s.setTxPacket p).tag = s.tag := rfl
@[simp] theorem State.setTxPacket_body (s : State) (p : Packet) : (s.setTxPacket p).body = s.body := rfl
@[simp] theorem State.setTxPacket_truncCnt (s : State) (p : Packet) : (s.setTxPacket p).truncCnt = s.truncCnt := rfl
@[simp] theorem State.setTxPacket_rxPkt (s : State) (p : Packet) : (s.setTxPacket p).rxPkt = s.rxPkt := rfl
@[simp] theorem State.setTxPacket_txPkt (s : State) (p : Packet) : (s.setTxPacket p).txPkt = p := rfl
@[simp] theorem State.setTxPacket_te (s : State) (p : Packet) : (s.setTxPacket p).te = s.te := rfl
@[simp] theorem State.setTxPacket_releaseAt (s : State) (p : Packet) : (s.setTxPacket p).releaseAt = s.releaseAt := rfl
@[simp] theorem State.setTxPacket_hist (s : State) (p : Packet) : (s.setTxPacket p).hist = s.hist := rfl
@[simp] theorem State.setTxPacket_returned (s : State) (p : Packet) : (s.setTxPacket p).returned = s.returned := rfl
@[simp] theorem State.setTxPacket_pending (s : State) (p : Packet) : (s.setTxPacket p).pending = s.pending := rfl

@[simp] theorem State.assertTe_cfg (s : State) (r : Nat) : (s.assertTe r).cfg = s.cfg := rfl
@[simp] theorem State.assertTe_tag (s : State) (r : Nat) : (s.assertTe r).tag = s.tag := rfl
@[simp] theorem State.assertTe_body (s : State) (r : Nat) : (s.assertTe r).body = s.body := rfl
@[simp] theorem State.assertTe_truncCnt (s : State) (r : Nat) : (s.assertTe r).truncCnt = s.truncCnt := rfl
@[simp] theorem State.assertTe_rxPkt (s : State) (r : Nat) : (s.assertTe r).rxPkt = s.rxPkt := rfl
@[simp] theorem State.assertTe_txPkt (s : State) (r : Nat) : (s.assertTe r).txPkt = s.txPkt := rfl
@[simp] theorem State.assertTe_te (s : State) (r : Nat) : (s.assertTe r).te = true := rfl
@[simp] theorem State.assertTe_releaseAt (s : State) (r : Nat) : (s.assertTe r).releaseAt = r := rfl
@[simp] theorem State.assertTe_hist (s : State) (r : Nat) : (s.assertTe r).hist = if s.te then s.hist else s.hist ++ [.teAssert] := rfl
@[simp] theorem State.assertTe_returned (s : State) (r : Nat) : (s.assertTe r).returned = s.returned := rfl
@[simp] theorem State.assertTe_pending (s : State) (r : Nat) : (s.assertTe r).pending = s.pending := rfl

@[simp] theorem State.releaseTe_cfg (s : State) : (s.releaseTe).cfg = s.cfg := rfl
@[simp] theorem State.releaseTe_tag (s : State) : (s.releaseTe).tag = s.tag := rfl
@[simp] theorem State.releaseTe_body (s : State) : (s.releaseTe).body = s.body := rfl
@[simp] theorem State.releaseTe_truncCnt (s : State) : (s.releaseTe).truncCnt = s.truncCnt := rfl
@[simp] theorem State.releaseTe_rxPkt (s : State) : (s.releaseTe).rxPkt = s.rxPkt := rfl
@[simp] theorem State.releaseTe_txPkt (s : State) : (s.releaseTe).txPkt = s.txPkt := rfl
@[simp] theorem State.releaseTe_te (s : State) : (s.releaseTe).te = false := rfl
@[simp] theorem State.releaseTe_releaseAt (s : State) : (s.releaseTe).releaseAt = s.releaseAt := rfl
@[simp] theorem State.releaseTe_hist (s : State) : (s.releaseTe).hist = if s.te then s.hist ++ [.teRelease] else s.hist := rfl
@[simp] theorem State.releaseTe_returned (s : State) : (s.releaseTe).returned = s.returned := rfl
@[simp] theorem State.releaseTe_pending (s : State) : (s.releaseTe).pending = s.pending := rfl

@[simp] theorem State.resetRegisters_cfg (s : State) : (s.resetRegisters).cfg = s.cfg := rfl
@[simp] theorem State.resetRegisters_tag (s : State) : (s.resetRegisters).tag = [] := rfl
@[simp] theorem State.resetRegisters_body (s : State) : (s.resetRegisters).body = [] := rfl
@[simp] theorem State.resetRegisters_truncCnt (s : State) : (s.resetRegisters).truncCnt = 0 := rfl
@[simp] theorem State.resetRegisters_rxPkt (s : State) : (s.resetRegisters).rxPkt = none := rfl
@[simp] theorem State.resetRegisters_txPkt (s : State) : (s.resetRegisters).txPkt = zeroPacket := rfl
@[simp] theorem State.resetRegisters_te (s : State) : (s.resetRegisters).te = s.te := rfl
@[simp] theorem State.resetRegisters_releaseAt (s : State) : (s.resetRegisters).releaseAt = s.releaseAt := rfl
@[simp] theorem State.resetRegisters_hist (s : State) : (s.resetRegisters).hist = s.hist := rfl
@[simp] theorem State.resetRegisters_returned (s : State) : (s.resetRegisters).returned = s.returned := rfl
@[simp] theorem State.resetRegisters_pending (s : State) : (s.resetRegisters).pending = s.pending := rfl

@[simp] theorem State.emitTx_cfg (s : State) (bs : List Byte) : (s.emitTx bs).cfg = s.cfg := rfl
@[simp] theorem State.emitTx_tag (s : State) (bs : List Byte) : (s.emitTx bs).tag = s.tag := rfl
@[simp] theorem State.emitTx_body (s : State) (bs : List Byte) : (s.emitTx bs).body = s.body := rfl
@[simp] theorem State.emitTx_truncCnt (s : State) (bs : List Byte) : (s.emitTx bs).truncCnt = s.truncCnt := rfl
@[simp] theorem State.emitTx_rxPkt (s : State) (bs : List Byte) : (s.emitTx bs).rxPkt = s.rxPkt := rfl
@[simp] theorem State.emitTx_txPkt (s : State) (bs : List Byte) : (s.emitTx bs).txPkt = s.txPkt := rfl
@[simp] theorem State.emitTx_te (s : State) (bs : List Byte) : (s.emitTx bs).te = s.te := rfl
@[simp] theorem State.emitTx_releaseAt (s : State) (bs : List Byte) : (s.emitTx bs).releaseAt = s.releaseAt := rfl
@[simp] theorem State.emitTx_hist (s : State) (bs : List Byte) : (s.emitTx bs).hist = s.hist ++ [.tx bs] := rfl
@[simp] theorem State.emitTx_returned (s : State) (bs : List Byte) : (s.emitTx bs).returned = s.returned := rfl
@[simp] theorem State.emitTx_pending (s : State) (bs : List Byte) : (s.emitTx bs).pending = s.pending := rfl

@[simp] theorem State.rxValid_eq (s : State) : s.rxValid = s.rxPkt.isSome := rfl
@[simp] theorem State.tagLen_eq (s : State) : s.tagLen = s.tag.length := rfl
@[simp] theorem State.bodyLen_eq (s : State) : s.bodyLen = s.body.length := rfl

end Sys2Proof.Machine
end

