-- ==== Sys2Proof/Laws/Exec.lean ====
section
/-! SUPPORT. What a meaning and a step can do, said once: the inversion lemmas the provers cite instead of unfolding
`exec` and `step`. -/

namespace Sys2Proof.Machine

@[simp] theorem requires_true (why : Refusal) (o : Host.Outcome State Fault Refusal) :
    requires true why o = o := rfl

theorem requires_next {p : Bool} {why : Refusal} {o : Host.Outcome State Fault Refusal} {s' : State}
    (h : requires p why o = .next s') : p = true ∧ o = .next s' := by
  cases p with
  | true => exact ⟨rfl, h⟩
  | false => simp [requires] at h

theorem answer_next {r : Returned} {s s' : State} (h : answer r s = .next s') : s' = s.returning r := by
  simpa [answer] using h.symm

/-- SEND inside its domain completes, with this effect (44_transmit.md R175). -/
theorem exec_send_next {p c : Byte} {payload : List Byte} {now : Nat} {s : State} (h1 : payload.length ≤ payloadMax)
    (h2 : s.cfg.teEn = true → 1 ≤ s.cfg.baud) (h3 : s.cfg.timeFits now = true) :
    exec (.send p c payload now) s = .next ((sendPacket p c payload now s).returning .nothing) := by
  have hb : (!s.cfg.teEn || decide (1 ≤ s.cfg.baud)) = true := by
    cases ht : s.cfg.teEn with
    | false => rfl
    | true => simpa using h2 ht
  simp only [exec, execSend, h1, h3, hb, decide_true, requires_true]

/-- RX.DATA of a byte that is no line break completes, with this effect (42_line_parser.md R132). -/
theorem exec_rxData_next {b : Byte} (s : State) (h : isLineBreak b = false) :
    exec (.rxData b) s = .next ((storeRxByte b s).endRx .none) := by
  simp only [exec, execRxData, h, Bool.not_false, requires_true]

/-- TICK of a `now` of `W_TIME` bits completes, with this effect (45_te_timer.md R195). -/
theorem exec_tick_next {now : Nat} {s : State} (h : s.cfg.timeFits now = true) :
    exec (.tick now) s = .next ((checkRelease now s).returning .nothing) := by
  simp only [exec, execTick, h, requires_true]

/-- An instruction that is none of the state operations only returns a value. -/
theorem pure_case {i : Instr} {s s' : State} (r : Returned) (h : s' = s.returning r)
    (hr : ¬IsReceive i := by simp [IsReceive]) (ht : ¬IsTransmit i := by simp [IsTransmit])
    (hz : i ≠ .reset := by simp) :
    ¬IsReceive i ∧ ¬IsTransmit i ∧ i ≠ .reset ∧ ∃ r, s' = s.returning r := ⟨hr, ht, hz, r, h⟩

/-- Everything an instruction that completes can do to the state. -/
theorem exec_next_cases {i : Instr} {s s' : State} (h : exec i s = .next s') :
    (¬IsReceive i ∧ ¬IsTransmit i ∧ i ≠ .reset ∧ ∃ r, s' = s.returning r) ∨
    (∃ b, i = .rxData b ∧ isLineBreak b = false ∧ s' = (storeRxByte b s).endRx .none) ∨
    (i = .rxCr ∧ s' = s.endRx .none) ∨
    (i = .rxLf ∧ s' = completeLine s) ∨
    (∃ p c payload now, i = .send p c payload now ∧ payload.length ≤ payloadMax ∧
      (s.cfg.teEn = true → 1 ≤ s.cfg.baud) ∧ s.cfg.timeFits now = true ∧
      s' = (sendPacket p c payload now s).returning .nothing) ∨
    (∃ now, i = .tick now ∧ s.cfg.timeFits now = true ∧ s' = (checkRelease now s).returning .nothing) ∨
    (i = .reset ∧ s' = s.releaseTe.resetRegisters.returning .nothing) := by
  cases i with
  | rxLf => exact .inr (.inr (.inr (.inl ⟨rfl, by simpa [exec, execRxLf] using h.symm⟩)))
  | rxCr => exact .inr (.inr (.inl ⟨rfl, by simpa [exec, execRxCr] using h.symm⟩))
  | rxData b =>
    obtain ⟨hb, h⟩ := requires_next h
    exact .inr (.inl ⟨b, rfl, by simpa using hb, by simpa using h.symm⟩)
  | send p c payload now =>
    obtain ⟨h1, h⟩ := requires_next h
    obtain ⟨h2, h⟩ := requires_next h
    obtain ⟨h3, h⟩ := requires_next h
    refine .inr (.inr (.inr (.inr (.inl ⟨p, c, payload, now, rfl, by simpa using h1, ?_, h3, by simpa using h.symm⟩))))
    intro ht
    simpa [ht] using h2
  | tick now =>
    obtain ⟨h1, h⟩ := requires_next h
    exact .inr (.inr (.inr (.inr (.inr (.inl ⟨now, rfl, h1, by simpa using h.symm⟩)))))
  | reset => exact .inr (.inr (.inr (.inr (.inr (.inr ⟨rfl, by simpa [exec, execReset] using h.symm⟩)))))
  | hexInvalid c => exact .inl (pure_case _ (answer_next (requires_next h).2))
  | ptUnassigned t => exact .inl (pure_case _ (answer_next (requires_next h).2))
  | frame line => exact .inl (pure_case _ (answer_next (requires_next h).2))
  | parity p n c ds payload => exact .inl (pure_case _ (answer_next (requires_next h).2))
  | isvalid pkt => exact .inl (pure_case _ (answer_next (requires_next h).2))
  | tagcmp tag tagLen => exact .inl (pure_case _ (answer_next (requires_next h).2))
  | encode p n c payload => exact .inl (pure_case _ (answer_next (requires_next h).2))
  | holdcalc baud ds => exact .inl (pure_case _ (answer_next (requires_next h).2))
  | _ => exact .inl (pure_case _ (answer_next h))

/-- Everything a step that completes can do. -/
theorem step_next_cases {s s' : State} (h : step s = .next s') :
    (s.pending = [] ∧ s' = s) ∨
    (∃ t rest i, s.pending = t :: rest ∧ decode t = .ok i ∧ exec i { s with pending := rest } = .next s') := by
  unfold step at h
  split at h
  · next hp => exact .inl ⟨hp, by simpa using h.symm⟩
  · next t rest hp =>
    split at h
    · next i hd => exact .inr ⟨t, rest, i, hp, hd, h⟩
    · simp at h

/-- A run whose first step completes goes on from there. -/
theorem run_succ {n : Nat} {s t : State} (h : step s = .next t) : run (n + 1) s = run n t := by
  simp only [run, h]

/-- `run` is the host's run of the machine. -/
theorem run_eq_core_run (n : Nat) (s : State) : Host.Core.run core n s = run n s := by
  induction n generalizing s with
  | zero => rfl
  | succ n ih =>
    cases h : step s with
    | next s' =>
      have hc : core.step s = .next s' := h
      simp only [Host.Core.run, hc, run, h]
      exact ih s'
    | fault f => exact nomatch f
    | refused r =>
      have hc : core.step s = .refused r := h
      simp only [Host.Core.run, hc, run, h]
      rfl

/-- No meaning and no step faults: the block has no fatal condition (60_exceptions.md R217). -/
theorem exec_ne_fault (i : Instr) (s : State) (f : Fault) : exec i s ≠ .fault f := nomatch f

@[simp] theorem storeRxByte_cfg (b : Byte) (s : State) : (storeRxByte b s).cfg = s.cfg := by
  unfold storeRxByte; split <;> [skip; split] <;> rfl
@[simp] theorem storeRxByte_rxPkt (b : Byte) (s : State) : (storeRxByte b s).rxPkt = s.rxPkt := by
  unfold storeRxByte; split <;> [skip; split] <;> rfl
@[simp] theorem storeRxByte_txPkt (b : Byte) (s : State) : (storeRxByte b s).txPkt = s.txPkt := by
  unfold storeRxByte; split <;> [skip; split] <;> rfl
@[simp] theorem storeRxByte_te (b : Byte) (s : State) : (storeRxByte b s).te = s.te := by
  unfold storeRxByte; split <;> [skip; split] <;> rfl
@[simp] theorem storeRxByte_releaseAt (b : Byte) (s : State) : (storeRxByte b s).releaseAt = s.releaseAt := by
  unfold storeRxByte; split <;> [skip; split] <;> rfl
@[simp] theorem storeRxByte_hist (b : Byte) (s : State) : (storeRxByte b s).hist = s.hist := by
  unfold storeRxByte; split <;> [skip; split] <;> rfl
@[simp] theorem storeRxByte_pending (b : Byte) (s : State) : (storeRxByte b s).pending = s.pending := by
  unfold storeRxByte; split <;> [skip; split] <;> rfl

/-- RX.DATA in the tag phase (42_line_parser.md R133). -/
theorem storeRxByte_tag {s : State} (b : Byte) (h : s.tag.length < tagLength) : storeRxByte b s = s.storeTag b := by
  unfold storeRxByte
  rw [if_pos (show s.tagLen < tagLength from h)]

/-- RX.DATA in the body phase with room left (42_line_parser.md R131). -/
theorem storeRxByte_body {s : State} (b : Byte) (h : ¬s.tag.length < tagLength) (hb : s.body.length < s.cfg.bodyCap) :
    storeRxByte b s = s.storeBody b := by
  unfold storeRxByte
  rw [if_neg (show ¬s.tagLen < tagLength from h), if_pos (show s.bodyLen < s.cfg.bodyCap from hb)]

/-- RX.DATA with the body full (42_line_parser.md R134). -/
theorem storeRxByte_full {s : State} (b : Byte) (h : ¬s.tag.length < tagLength) (hb : ¬s.body.length < s.cfg.bodyCap) :
    storeRxByte b s = s.countDropped := by
  unfold storeRxByte
  rw [if_neg (show ¬s.tagLen < tagLength from h), if_neg (show ¬s.bodyLen < s.cfg.bodyCap from hb)]

/-- The three outcomes of RX.LF (42_line_parser.md R136). -/
theorem completeLine_cases (s : State) :
    (tagMatches s.tag s.tag.length = false ∧ completeLine s = s.clearLine.endRx .lineIgnored) ∨
    (∃ pkt, tagMatches s.tag s.tag.length = true ∧ decodeLine s.body = .ok pkt ∧
      completeLine s = (s.acceptPacket pkt).clearLine.endRx (.packetAccepted pkt)) ∨
    (∃ e, tagMatches s.tag s.tag.length = true ∧ decodeLine s.body = .fail e ∧
      completeLine s = s.reportFailure e) := by
  unfold completeLine
  simp only [State.tagLen_eq, State.bodyLen_eq, memRead_all]
  cases ht : tagMatches s.tag s.tag.length with
  | false => exact .inl ⟨rfl, rfl⟩
  | true =>
    cases hd : decodeLine s.body with
    | ok pkt => exact .inr (.inl ⟨pkt, rfl, rfl, rfl⟩)
    | fail e => exact .inr (.inr ⟨e, rfl, rfl, rfl⟩)

/-- When DECODE accepts (43_decode.md R150 to R156), and what it then gives. -/
theorem decodeLine_ok {body : List Byte} {pkt : Packet} (h : decodeLine body = .ok pkt) :
    byteAt body 0 = 0x54 ∧ body.length = 16 + 2 * (hexAt body 10).toNat ∧
      pkt = packetAt body (hexAt body 10) ∧ packetParity pkt = pkt.parity := by
  unfold decodeLine at h
  split at h
  · cases h
  · next h0 =>
    split at h
    · cases h
    · simp only at h
      split at h
      · cases h
      · next hl =>
        split at h
        · cases h
        · next hp =>
          cases h
          exact ⟨by by_contra hc; exact h0 (.inr hc), by omega, rfl, by by_contra hc; exact hp hc⟩

/-- The payload of a decoded body has the decoded length. -/
@[simp] theorem payloadAt_length (body : List Byte) (n : Nat) : (payloadAt body n).length = n := by
  simp [payloadAt]

end Sys2Proof.Machine
end

