-- ==== Sys2Proof/Laws/Memory.lean ====
section
/-! SUPPORT. The buffers as memories of (index, byte) cells: the canonical form holds of every space of every state, and
reading a cell is reading the buffer, so the memory operations of Machine/Ops.lean are the list operations they are
written as. -/

namespace Sys2Proof.Machine

theorem cellsFrom_wf (bs : List Byte) (n : Nat) : Memory.wf (cellsFrom n bs) = true := by
  induction bs generalizing n with
  | nil => rfl
  | cons b bs ih =>
    cases bs with
    | nil => rfl
    | cons c cs =>
      have h := ih (n + 1)
      simp only [cellsFrom] at h
      simp [cellsFrom, Memory.wf, h]

/-- Every space of every state is in canonical form; so every operation keeps the form, and reset has it. -/
theorem memory_wf (s : State) (sp : Space) : (s.memory sp).wf = true := cellsFrom_wf _ 0

theorem cellsFrom_read (bs : List Byte) (n a : Nat) :
    Memory.read (cellsFrom n bs) (n + a) = bs[a]? := by
  induction bs generalizing n a with
  | nil => rfl
  | cons b bs ih =>
    cases a with
    | zero => simp [cellsFrom, Memory.read]
    | succ a =>
      have h := ih (n + 1) a
      rw [show n + 1 + a = n + (a + 1) by omega] at h
      simp [cellsFrom, Memory.read, h]

/-- Reading a cell of a space is reading its buffer. -/
theorem memory_read (s : State) (sp : Space) (a : Nat) : (s.memory sp).read a = s.readByte sp a := by
  have h := cellsFrom_read (s.buffer sp) 0 a
  rw [Nat.zero_add] at h
  exact h

/-- A write at the end of a buffer leaves every index below it alone and puts the byte at the end. -/
theorem memWrite_end_read (buf : List Byte) (b : Byte) (a : Nat) :
    (memWrite buf buf.length [b])[a]? = if a = buf.length then some b else buf[a]? := by
  rw [memWrite_end]
  split
  · next h => simp [h]
  · next h =>
    rcases Nat.lt_or_gt_of_ne h with h | h
    · rw [List.getElem?_append_left h]
    · rw [List.getElem?_eq_none (by simp; omega), List.getElem?_eq_none (by omega)]

@[simp] theorem State.buffer_tag (s : State) : s.buffer .tag = s.tag := rfl
@[simp] theorem State.buffer_body (s : State) : s.buffer .body = s.body := rfl
@[simp] theorem State.buffer_txPayload (s : State) : s.buffer .txPayload = s.txPkt.payload := rfl
@[simp] theorem State.buffer_rxPayload (s : State) :
    s.buffer .rxPayload = (s.rxPkt.map (·.payload)).getD [] := rfl

end Sys2Proof.Machine
end

