-- ==== Sys2Proof/Laws/PerInstr.lean ====
section
/-! SUPPORT. Per-instruction families: what is true of every instruction as syntax, one lemma per constructor. -/

namespace Sys2Proof.Laws.RoundTrip

/-- A well-formed instruction is what its own transaction decodes to. -/
def Statement (i : Instr) : Prop := ∀ c : Config, i.wellFormed c = true → Sys2Proof.decode (Sys2Proof.encode i) = .ok i

/-- A byte that is no key of a table is not found in it. -/
theorem lookup_none (rows : List (Byte × Instr)) (b : Byte) (h : ∀ r ∈ rows, r.1 ≠ b) : rows.lookup b = none := by
  induction rows with
  | nil => rfl
  | cons r rows ih =>
    obtain ⟨k, i⟩ := r
    have hk : (b == k) = false := by
      simpa using fun e => h (k, i) (by simp) e.symm
    simp only [List.lookup, hk]
    exact ih (fun r hr => h r (by simp [hr]))

theorem rxLf : Statement .rxLf := fun _ _ => rfl
theorem rxCr : Statement .rxCr := fun _ _ => rfl
theorem hex0 : Statement .hex0 := fun _ _ => rfl
theorem hex1 : Statement .hex1 := fun _ _ => rfl
theorem hex2 : Statement .hex2 := fun _ _ => rfl
theorem hex3 : Statement .hex3 := fun _ _ => rfl
theorem hex4 : Statement .hex4 := fun _ _ => rfl
theorem hex5 : Statement .hex5 := fun _ _ => rfl
theorem hex6 : Statement .hex6 := fun _ _ => rfl
theorem hex7 : Statement .hex7 := fun _ _ => rfl
theorem hex8 : Statement .hex8 := fun _ _ => rfl
theorem hex9 : Statement .hex9 := fun _ _ => rfl
theorem hexA : Statement .hexA := fun _ _ => rfl
theorem hexB : Statement .hexB := fun _ _ => rfl
theorem hexC : Statement .hexC := fun _ _ => rfl
theorem hexD : Statement .hexD := fun _ _ => rfl
theorem hexE : Statement .hexE := fun _ _ => rfl
theorem hexF : Statement .hexF := fun _ _ => rfl
theorem hexLowerA : Statement .hexLowerA := fun _ _ => rfl
theorem hexLowerB : Statement .hexLowerB := fun _ _ => rfl
theorem hexLowerC : Statement .hexLowerC := fun _ _ => rfl
theorem hexLowerD : Statement .hexLowerD := fun _ _ => rfl
theorem hexLowerE : Statement .hexLowerE := fun _ _ => rfl
theorem hexLowerF : Statement .hexLowerF := fun _ _ => rfl

/-- The characters of the `hexchar` rows are hex digits. -/
theorem hexcharRows_digit : ∀ r ∈ hexcharRows, isHexDigit r.1 = true := by decide

theorem hexInvalid (ch : Byte) : Statement (.hexInvalid ch) := by
  intro c h
  have hn : hexcharRows.lookup ch = none := by
    refine lookup_none _ _ fun r hr e => ?_
    have hd := hexcharRows_digit r hr
    rw [e] at hd
    simp [Instr.wellFormed, hd] at h
  simp [Sys2Proof.encode, Sys2Proof.decode, oneByte, decodeHexchar, hn, noNumber]

theorem rxData (b : Byte) : Statement (.rxData b) := by
  intro c h
  simp only [Instr.wellFormed, isLineBreak, Bool.not_eq_true', Bool.or_eq_false_iff] at h
  simp only [Sys2Proof.encode, Sys2Proof.decode, oneByte, decodeRx, h.1, h.2, noNumber, if_true]
  rfl

theorem ptReply : Statement .ptReply := fun _ _ => rfl
theorem ptEvent : Statement .ptEvent := fun _ _ => rfl
theorem ptArray : Statement .ptArray := fun _ _ => rfl
theorem ptValue : Statement .ptValue := fun _ _ => rfl
theorem ptRequest : Statement .ptRequest := fun _ _ => rfl
theorem ptError : Statement .ptError := fun _ _ => rfl
theorem ptReset : Statement .ptReset := fun _ _ => rfl

/-- The types of the `ptype` rows are the assigned ones. -/
theorem ptypeRows_assigned : ∀ r ∈ ptypeRows, isAssignedType r.1 = true := by decide

theorem ptUnassigned (t : Byte) : Statement (.ptUnassigned t) := by
  intro c h
  have hn : ptypeRows.lookup t = none := by
    refine lookup_none _ _ fun r hr e => ?_
    have hd := ptypeRows_assigned r hr
    rw [e] at hd
    simp [Instr.wellFormed, hd] at h
  simp [Sys2Proof.encode, Sys2Proof.decode, oneByte, decodePtype, hn, noNumber]

theorem frame (line : List Byte) : Statement (.frame line) := by
  intro c h
  have h' : line.any isLineBreak = false := by simpa only [Instr.wellFormed, Bool.not_eq_true'] using h
  simp [Sys2Proof.encode, Sys2Proof.decode, decodeFramePort, h', noNumber]

/-- The low nibble of a zero-extended nibble is the nibble. -/
theorem lo_zeroExtend : ∀ v : Nibble, Byte.lo (v.zeroExtend 8) = v ∧ (v.zeroExtend 8).toNat < 16 := by decide

theorem nib2hex (v : Nibble) : Statement (.nib2hex v) := by
  intro c _
  have h := lo_zeroExtend v
  simp only [Sys2Proof.encode, Sys2Proof.decode, oneByte, decodeNibblePort, noNumber, h.1, h.2, if_true]

theorem hex2nib (ch : Byte) : Statement (.hex2nib ch) := fun _ _ => rfl
theorem byte2hex (b : Byte) : Statement (.byte2hex b) := fun _ _ => rfl
theorem hex2byte (c0 c1 : Byte) : Statement (.hex2byte c0 c1) := fun _ _ => rfl

theorem parity (p n c ds : Byte) (payload : List Byte) : Statement (.parity p n c ds payload) := by
  intro _ h
  simp only [Instr.wellFormed, beq_iff_eq] at h
  simp [Sys2Proof.encode, Sys2Proof.decode, decodeParityPort, h, noNumber]

theorem isvalid (k : Packet) : Statement (.isvalid k) := by
  intro _ h
  simp only [Instr.wellFormed, Packet.sized, beq_iff_eq] at h
  simp [Sys2Proof.encode, Sys2Proof.decode, decodeIsvalidPort, h, noNumber]

theorem tagcmp (tag : List Byte) (tagLen : Nat) : Statement (.tagcmp tag tagLen) := by
  intro _ h
  simp only [Instr.wellFormed, Bool.and_eq_true, beq_iff_eq, decide_eq_true_eq] at h
  simp [Sys2Proof.encode, Sys2Proof.decode, decodeTagcmpPort, h]

theorem decode (body : List Byte) : Statement (.decode body) := fun _ _ => rfl
theorem encode (p n c : Byte) (payload : List Byte) : Statement (.encode p n c payload) := fun _ _ => rfl
theorem send (p c : Byte) (payload : List Byte) (now : Nat) : Statement (.send p c payload now) := fun _ _ => rfl
theorem holdcalc (baud : Nat) (ds : Byte) : Statement (.holdcalc baud ds) := fun _ _ => rfl
theorem tick (now : Nat) : Statement (.tick now) := fun _ _ => rfl
theorem reset : Statement .reset := fun _ _ => rfl

end Sys2Proof.Laws.RoundTrip
end

