-- ==== Sys2Proof/Laws/Spec.lean ====
section
/-! SUPPORT. One lemma per function of the model that says what it gives, for the proofs to cite. -/

namespace Sys2Proof.Machine

/-! ### Codec -/

/-- HEX2NIB after NIB2HEX, for either letter case (40_codec.md R101). -/
theorem hexToNib_nibToHex (hc : HexCase) : ∀ v : Nibble, hexToNib (nibToHex hc v) = v := by
  cases hc <;> decide

/-- NIB2HEX never gives CR or LF. -/
theorem nibToHex_not_break (hc : HexCase) : ∀ v : Nibble, nibToHex hc v ≠ 0x0A ∧ nibToHex hc v ≠ 0x0D := by
  cases hc <;> decide

/-- A byte is made of its two nibbles. -/
theorem ofNibbles_hi_lo (b : Byte) : Byte.ofNibbles b.hi b.lo = b := by
  simp only [Byte.ofNibbles, Byte.hi, Byte.lo]
  ext i hi
  interval_cases i <;> simp

theorem ofNibbles_toNat (h l : Nibble) : (Byte.ofNibbles h l).toNat = 16 * h.toNat + l.toNat := by
  revert h l; decide

/-- HEX2BYTE after BYTE2HEX, for either letter case (40_codec.md R105). -/
theorem hexToByte_hexPair (hc : HexCase) (b : Byte) : hexToByte (nibToHex hc b.hi) (nibToHex hc b.lo) = b := by
  rw [hexToByte, hexToNib_nibToHex, hexToNib_nibToHex, ofNibbles_hi_lo]

/-! ### Parity -/

theorem foldl_xor (l : List Byte) (a : Byte) : l.foldl (· ^^^ ·) a = a ^^^ xorAll l := by
  induction l generalizing a with
  | nil => simp [xorAll]
  | cons b l ih => simp only [List.foldl_cons, ih, xorAll, BitVec.xor_assoc]

/-- The fold of R120 is the exclusive-or of all its inputs. -/
theorem parityOf_eq_xorAll (p n c ds : Byte) (l : List Byte) :
    parityOf p n c ds l = xorAll (p :: n :: c :: ds :: l) := by
  simp [parityOf, foldl_xor, xorAll, BitVec.xor_assoc]

/-! ### Tables of the decoder -/

/-- What a table gives for a key is one of its rows. -/
theorem lookup_mem (rows : List (Byte × Instr)) (b : Byte) (i : Instr) (h : rows.lookup b = some i) :
    (b, i) ∈ rows := by
  induction rows with
  | nil => cases h
  | cons r rows ih =>
    obtain ⟨k, j⟩ := r
    simp only [List.lookup] at h
    split at h
    · next hb =>
      have e : b = k := by simpa using hb
      cases h
      simp [e]
    · simp [ih h]

theorem noNumber_ok {n : Nat} {i j : Instr} (h : noNumber n i = .ok j) : n = 0 ∧ i = j := by
  unfold noNumber at h
  split at h
  · next hn => exact ⟨hn, by simpa using h⟩
  · cases h

theorem oneByte_ok {data : List Byte} {f : Byte → Except DecodeRefusal Instr} {i : Instr}
    (h : oneByte data f = .ok i) : ∃ b, data = [b] ∧ f b = .ok i := by
  match data, h with
  | [b], h => exact ⟨b, rfl, h⟩

theorem noBytes_ok {data : List Byte} {r : Except DecodeRefusal Instr} {i : Instr} (h : noBytes data r = .ok i) :
    data = [] ∧ r = .ok i := by
  match data, h with
  | [], h => exact ⟨rfl, h⟩

/-! ### Line parser -/

/-- TAGCMP holds exactly of the five characters `[MSP]`. -/
theorem tagMatches_iff (tag : List Byte) (n : Nat) (h : tag.length = 5 ∨ n = tag.length) :
    tagMatches tag n = true ↔ n = 5 ∧ tag = tagBytes := by
  unfold tagMatches tagLength
  simp only [Bool.and_eq_true, beq_iff_eq]
  constructor
  · rintro ⟨⟨⟨⟨⟨h0, h1⟩, h2⟩, h3⟩, h4⟩, h5⟩
    have hl : tag.length = 5 := by omega
    match tag, hl with
    | [_, _, _, _, _], _ =>
      simp only [byteAt, List.getElem?_cons_zero, List.getElem?_cons_succ, Option.getD_some] at h1 h2 h3 h4 h5
      subst h0 h1 h2 h3 h4 h5
      exact ⟨rfl, rfl⟩
  · rintro ⟨rfl, rfl⟩
    decide

theorem any_lineBreak (l : List Byte) (h : ∀ b ∈ l, b ≠ 0x0A ∧ b ≠ 0x0D) : l.any isLineBreak = false := by
  rw [List.any_eq_false]
  intro b hb
  simp only [isLineBreak, Bool.or_eq_true, beq_iff_eq, not_or]
  exact h b hb

/-! ### Frames -/

theorem byteAt_append_right (a b : List Byte) (k : Nat) : byteAt (a ++ b) (a.length + k) = byteAt b k := by
  simp [byteAt, List.getElem?_append_right]

theorem flatMap_hexPair_length (hc : HexCase) (l : List Byte) : (l.flatMap (hexPair hc)).length = 2 * l.length := by
  induction l with
  | nil => rfl
  | cons b l ih =>
    simp only [List.flatMap_cons, hexPair, List.length_append, List.length_cons, List.length_nil] at *
    omega

/-- The two characters of payload byte `i` stand at offsets `2*i` and `2*i + 1` of the payload digits. -/
theorem byteAt_flatMap_hexPair (hc : HexCase) (l r : List Byte) (i : Nat) (hi : i < l.length) :
    byteAt (l.flatMap (hexPair hc) ++ r) (2 * i) = nibToHex hc l[i].hi ∧
      byteAt (l.flatMap (hexPair hc) ++ r) (2 * i + 1) = nibToHex hc l[i].lo := by
  induction l generalizing i with
  | nil => simp at hi
  | cons b l ih =>
    cases i with
    | zero => simp [byteAt, hexPair]
    | succ i =>
      have e : ∀ (x y : Byte) (r : List Byte) (k : Nat), byteAt (x :: y :: r) (k + 2) = byteAt r k :=
        fun x y r k => by simp [byteAt]
      rw [show 2 * (i + 1) + 1 = 2 * i + 1 + 2 by omega, show 2 * (i + 1) = 2 * i + 2 by omega]
      simp only [List.flatMap_cons, hexPair, List.cons_append, List.nil_append, e]
      exact ih i (by simpa using hi)

/-- The body of a frame has `16 + 2*ds` characters (30_encoding.md R71). -/
theorem encodeBody_length (hc : HexCase) (p n c : Byte) (l : List Byte) :
    (encodeBody hc p n c l).length = 16 + 2 * l.length := by
  simp only [encodeBody, List.length_append, flatMap_hexPair_length, hexPair, List.length_cons, List.length_nil]
  omega

/-! ### Time and history -/

theorem timeFits_iff (c : Config) (t : Nat) : c.timeFits t = true ↔ ∀ w, c.wTime = some w → t < 2 ^ w := by
  unfold Config.timeFits
  split
  · next h => simp [h]
  · next w h => simp [h]

/-- A scheduled release is a value of `W_TIME` bits (45_te_timer.md R193). -/
theorem releaseTime_fits (c : Config) (a b : Nat) : c.timeFits (releaseTime c a b) = true := by
  rw [timeFits_iff]
  intro w h
  simp only [releaseTime, h]
  exact Nat.mod_lt _ (by positivity)

/-- Without a wrap the release is the sum (70_reset_and_hazards.md R253). -/
theorem releaseTime_no_wrap (c : Config) (a b : Nat) (h : c.timeFits (a + b) = true) : releaseTime c a b = a + b := by
  rw [timeFits_iff] at h
  unfold releaseTime
  split
  · rfl
  · next w hw => exact Nat.mod_eq_of_lt (h w hw)

theorem teLevel_append (l : Bool) (a b : List Event) : teLevel l (a ++ b) = teLevel (teLevel l a) b := by
  induction a generalizing l with
  | nil => rfl
  | cons e a ih => cases e <;> simp [teLevel, ih]

/-- SEND's TE part where TE is configured. -/
theorem startHold_on {s : State} (now ds : Nat) (h : s.cfg.teEn = true) :
    startHold now ds s = s.assertTe (releaseTime s.cfg now (holdOf s ds)) := by
  unfold startHold
  rw [if_pos h]
  rfl

/-- SEND's TE part where TE is not configured (44_transmit.md R178). -/
theorem startHold_off {s : State} (now ds : Nat) (h : s.cfg.teEn = false) : startHold now ds s = s := by
  simp [startHold, h]

end Sys2Proof.Machine
end

