-- ==== Sys2Proof/Tests/Slice0.lean ====
section
/-! SUPPORT. Tests on the spec's own vectors (95_test_vectors.md), the refusals of WellFormed and of the decoder, and for
every statement with hypotheses a concrete witness that meets them. Expected results are the spec's, not the model's. -/

namespace Sys2Proof.Tests
open Sys2Proof Sys2Proof.Machine

/-- The characters of an ASCII text. -/
def ascii (t : String) : List Byte := t.toList.map (fun c => BitVec.ofNat 8 c.toNat)

/-- The reset state with a tag and a body accumulated: the line position before an RX.LF. -/
def holding (tag body : List Byte) : State := { State.reset with tag := tag, body := body }

/-- The reset state of an instance with a small body buffer. -/
def small (cap : Nat) : State := { State.reset with cfg := { Config.default with bodyCap := cap, wCnt := 1 } }

/-- Vector T1's state: TE asserted until 33271. -/
def asserted : State := { State.reset with te := true, releaseAt := 33271, hist := [.teAssert] }

/-- The state a completed operation leaves, for reading one field of it. -/
def after (o : Host.Outcome State Fault Refusal) : Option State :=
  match o with
  | .next s => some s
  | .fault _ => none
  | .refused _ => none

/-- The refusal of an operation that stops. -/
def refusal (o : Host.Outcome State Fault Refusal) : Option Refusal :=
  match o with
  | .next _ => none
  | .fault _ => none
  | .refused r => some r

/-! ### WellFormed: an ill-formed term for each check -/

theorem test_wf_rxData : Instr.wellFormed Config.default (.rxData 0x0A) = false ∧
    Instr.wellFormed Config.default (.rxData 0x0D) = false ∧
    Instr.wellFormed Config.default (.rxData 0x00) = true := by decide
theorem test_wf_hexInvalid : Instr.wellFormed Config.default (.hexInvalid 0x66) = false ∧
    Instr.wellFormed Config.default (.hexInvalid 0x67) = true := by decide
theorem test_wf_ptUnassigned : Instr.wellFormed Config.default (.ptUnassigned 0x1F) = false ∧
    Instr.wellFormed Config.default (.ptUnassigned 0x06) = true := by decide
theorem test_wf_frame : Instr.wellFormed Config.default (.frame [0x5B, 0x0D]) = false := by decide
theorem test_wf_parity : Instr.wellFormed Config.default (.parity 1 0 0 2 [0x00]) = false := by decide
theorem test_wf_isvalid : Instr.wellFormed Config.default (.isvalid { zeroPacket with datasize := 1 }) = false := by
  decide
theorem test_wf_tagcmp : Instr.wellFormed Config.default (.tagcmp [0x5B] 1) = false ∧
    Instr.wellFormed Config.default (.tagcmp tagBytes 6) = false := by decide
theorem test_wf_encode : Instr.wellFormed Config.default (.encode 1 0 0 (List.replicate 256 0)) = false := by
  simp only [Instr.wellFormed, List.length_replicate, payloadMax]
  decide
theorem test_wf_send_length :
    Instr.wellFormed Config.default (.send 1 0 (List.replicate 256 0) 0) = false := by
  simp only [Instr.wellFormed, List.length_replicate, payloadMax]
  decide
theorem test_wf_send_now : Instr.wellFormed Config.default (.send 1 0 [] 4294967296) = false := by decide
theorem test_wf_holdcalc : Instr.wellFormed Config.default (.holdcalc 0 4) = false := by decide
theorem test_wf_tick : Instr.wellFormed Config.default (.tick 4294967296) = false ∧
    Instr.wellFormed Config.default (.tick 4294967295) = true := by decide
theorem test_wf_config : Config.default.wellFormed = true ∧
    Config.wellFormed { Config.default with baud := 0 } = false ∧
    Config.wellFormed { Config.default with term := [0x20] } = false ∧
    Config.wellFormed { Config.default with wTime := some 0 } = false ∧
    Config.wellFormed { Config.default with wCnt := 0 } = false := by decide

/-! ### Decoding: a word written out from the table or from R6 for every constructor -/

theorem test_decode_rx : decode ⟨.rx, [0x0A], 0⟩ = .ok .rxLf ∧ decode ⟨.rx, [0x0D], 0⟩ = .ok .rxCr ∧
    decode ⟨.rx, [0x00], 0⟩ = .ok (.rxData 0x00) ∧ decode ⟨.rx, [0xFF], 0⟩ = .ok (.rxData 0xFF) := by decide
theorem test_decode_hexchar_digits : [0x30, 0x31, 0x32, 0x33, 0x34, 0x35, 0x36, 0x37, 0x38, 0x39].map
    (decodeTableWord 8) = [some .hex0, some .hex1, some .hex2, some .hex3, some .hex4, some .hex5, some .hex6,
    some .hex7, some .hex8, some .hex9] := by decide
theorem test_decode_hexchar_letters : [0x41, 0x42, 0x43, 0x44, 0x45, 0x46, 0x61, 0x62, 0x63, 0x64, 0x65, 0x66].map
    (decodeTableWord 8) = [some .hexA, some .hexB, some .hexC, some .hexD, some .hexE, some .hexF, some .hexLowerA,
    some .hexLowerB, some .hexLowerC, some .hexLowerD, some .hexLowerE, some .hexLowerF] := by decide
theorem test_decode_hexchar_invalid : [0x2F, 0x3A, 0x40, 0x47, 0x60, 0x67].map (fun c => decode ⟨.hexchar, [c], 0⟩) =
    [.ok (.hexInvalid 0x2F), .ok (.hexInvalid 0x3A), .ok (.hexInvalid 0x40), .ok (.hexInvalid 0x47),
    .ok (.hexInvalid 0x60), .ok (.hexInvalid 0x67)] := by decide
theorem test_decode_ptype : [0x01, 0x02, 0x03, 0x04, 0x05, 0x07, 0x1F].map (decodeTableWord 8) =
    [some .ptReply, some .ptEvent, some .ptArray, some .ptValue, some .ptRequest, some .ptError, some .ptReset] ∧
    decode ⟨.ptype, [0x00], 0⟩ = .ok (.ptUnassigned 0x00) ∧ decode ⟨.ptype, [0x06], 0⟩ = .ok (.ptUnassigned 0x06) := by
  decide
theorem test_decode_codec : decode ⟨.nib2hex, [0x0F], 0⟩ = .ok (.nib2hex 0xF) ∧
    decode ⟨.hex2nib, [0x66], 0⟩ = .ok (.hex2nib 0x66) ∧ decode ⟨.byte2hex, [0x1F], 0⟩ = .ok (.byte2hex 0x1F) ∧
    decode ⟨.hex2byte, [0x30, 0x34], 0⟩ = .ok (.hex2byte 0x30 0x34) := by decide
theorem test_decode_packet : decode ⟨.parity, [0x03, 0x01, 0x02, 0x01, 0xAB], 0⟩ = .ok (.parity 3 1 2 1 [0xAB]) ∧
    decode ⟨.isvalid, [0x03, 0x01, 0x02, 0x01, 0xAA, 0xAB], 0⟩ =
      .ok (.isvalid { ptype := 3, nodeId := 1, commandId := 2, datasize := 1, payload := [0xAB], parity := 0xAA }) ∧
    decode ⟨.encode, [0x03, 0x01, 0x02, 0xAB], 0⟩ = .ok (.encode 3 1 2 [0xAB]) := by decide
theorem test_decode_line : decode ⟨.tagcmp, [0x5B, 0x4D, 0x53, 0x50, 0x5D], 5⟩ = .ok (.tagcmp tagBytes 5) ∧
    decode ⟨.decode, [0x54], 0⟩ = .ok (.decode [0x54]) ∧
    decode ⟨.frame, [0x5B, 0x4D], 0⟩ = .ok (.frame [0x5B, 0x4D]) := by decide
theorem test_decode_host : decode ⟨.cmd, [0x04, 0x01, 0x00], 1000⟩ = .ok (.send 4 1 [0x00] 1000) ∧
    decode ⟨.tick, [], 33271⟩ = .ok (.tick 33271) ∧ decode ⟨.rst, [], 0⟩ = .ok .reset ∧
    decode ⟨.holdcalc, [0x04], 9600⟩ = .ok (.holdcalc 9600 4) := by decide

/-- The FRAME row: the 21 characters of `[MSP]T01N00I00S00PQ01` (section 6), the first in the low byte. -/
theorem test_decode_frame_word :
    decodeTableWord 168 0x313051503030533030493030_4E3130545D50534D5B =
      some (.frame (ascii "[MSP]T01N00I00S00PQ01")) := by decide

theorem test_decode_refusals : decode ⟨.rx, [], 0⟩ = .error .badLength ∧
    decode ⟨.rx, [0x00], 7⟩ = .error .unexpectedNumber ∧ decode ⟨.nib2hex, [0x10], 0⟩ = .error .notANibble ∧
    decode ⟨.parity, [0x01, 0x00, 0x00, 0x01], 0⟩ = .error .payloadLength ∧
    decode ⟨.tagcmp, [0x5B, 0x4D, 0x53, 0x50, 0x5D], 6⟩ = .error .tagLength ∧
    decode ⟨.frame, [0x5B, 0x0A], 0⟩ = .error .lineBreak ∧ decodeTableWord 16 0x3030 = none := by decide

/-- The 31 selector words of mask 0xFF differ pairwise, so no word of the table has two rows. -/
theorem test_rows_disjoint :
    (([0x0A, 0x0D] : List Byte) ++ hexcharRows.map (·.1) ++ ptypeRows.map (·.1)).Pairwise (· ≠ ·) := by decide

/-- A fetched word of the table is what the next step runs. -/
theorem test_fetch_word : (after (step (State.reset.withFetchWord 8 0x46))).map (·.returned) = some (.nibble 15) ∧
    (after (step (State.reset.withFetchWord 8 0x0A))).map (·.returned) = some (.rx .lineIgnored) := by decide

/-! ### Codec (section 2) -/

theorem test_nib2hex : [0x0, 0x9, 0xA, 0xC, 0xF].map (nibToHex .upper) = [0x30, 0x39, 0x41, 0x43, 0x46] ∧
    [0x0, 0x9, 0xA, 0xC, 0xF].map (nibToHex .lower) = [0x30, 0x39, 0x61, 0x63, 0x66] := by decide
theorem test_hex2nib : [0x2F, 0x30, 0x39, 0x3A, 0x40, 0x41, 0x46, 0x47, 0x60, 0x61, 0x66, 0x67, 0x00, 0x80].map hexToNib =
    [0, 0, 9, 0, 0, 10, 15, 0, 0, 10, 15, 0, 0, 0] := by decide
theorem test_byte2hex : byteToHex .upper 0x0A = (0x30, 0x41) ∧ byteToHex .upper 0xA5 = (0x41, 0x35) ∧
    byteToHex .lower 0xFF = (0x66, 0x66) := by decide
theorem test_hex2byte : hexToByte 0x61 0x42 = 0xAB ∧ hexToByte 0x47 0x31 = 0x01 ∧ hexToByte 0x31 0x47 = 0x10 ∧
    hexToByte 0x20 0x37 = 0x07 := by decide

/-! ### Parity (section 3) -/

theorem test_parity : parityOf 0x03 0x12 0x34 4 [0xDE, 0xAD, 0xBE, 0xEF] = 0x03 ∧
    parityOf 0x99 0xAB 0xCD 2 [0x0A, 0x0D] = 0xFA := by decide
theorem test_isvalid :
    packetValid { ptype := 4, nodeId := 0, commandId := 1, datasize := 4, payload := [0, 0, 0, 1], parity := 0 } = true ∧
    packetValid { ptype := 1, nodeId := 0, commandId := 0, datasize := 1, payload := [0], parity := 1 } = false := by
  decide

/-! ### Line parser and decoder (sections 1, 4, 5) -/

theorem test_decode_s1 : decodeLine (ascii "T04N00I01S04P00000001Q00") =
    .ok { ptype := 4, nodeId := 0, commandId := 1, datasize := 4, payload := [0, 0, 0, 1], parity := 0 } := by decide
theorem test_decode_failures : decodeLine (ascii "T01N00I00S00Q01") = .fail .malformedLine ∧
    decodeLine (ascii "T01N00I00S00PQ00") = .fail .parityMismatch ∧ decodeLine [] = .fail .malformedLine ∧
    decodeLine (ascii "t01N00I00S00PQ01") = .fail .malformedLine ∧
    decodeLine (ascii "T03N12I34S0GPQ03") = .fail .parityMismatch := by decide
theorem test_frame_v3_v8 : lineResult 256 (ascii "[MSP]T03N12I34S04PdeadbeefQ03") =
    .packetAccepted { ptype := 3, nodeId := 0x12, commandId := 0x34, datasize := 4,
                      payload := [0xDE, 0xAD, 0xBE, 0xEF], parity := 3 } ∧
    lineResult 256 (ascii "[MSP]T01x00y00z00pq01") = .packetAccepted
      { ptype := 1, nodeId := 0, commandId := 0, datasize := 0, payload := [], parity := 1 } := by decide
theorem test_frame_ignored : lineResult 256 (ascii "[msp]T01N00I00S00PQ01") = .lineIgnored ∧
    lineResult 256 (ascii "[MS") = .lineIgnored ∧ lineResult 256 (ascii "[MSP]") = .decodeError .malformedLine := by decide
theorem test_tagcmp : (after (exec (.tagcmp (ascii "[MSP]") 5) State.reset)).map (·.returned) = some (.flag true) ∧
    (after (exec (.tagcmp (ascii "[MSP]") 4) State.reset)).map (·.returned) = some (.flag false) := by decide
theorem test_rxData_phases : (after (exec (.rxData 0x5B) State.reset)).map (·.tag) = some [0x5B] ∧
    (after (exec (.rxData 0x54) (holding (ascii "[MSP]") []))).map (·.body) = some [0x54] := by decide
theorem test_rxData_truncates :
    (after (exec (.rxData 0x41) { small 1 with tag := ascii "[MSP]", body := [0x54] })).map
      (fun s => (s.body, s.truncCnt)) = some ([0x54], 1) ∧
    (after (exec (.rxData 0x41) { small 1 with tag := ascii "[MSP]", body := [0x54], truncCnt := 1 })).map
      (·.truncCnt) = some 1 := by decide
theorem test_rxCr : (after (exec .rxCr (holding (ascii "[M") []))).map (·.tag) = some (ascii "[M") := by decide
theorem test_rxLf_accepts : (after (exec .rxLf (holding (ascii "[MSP]") (ascii "T01N00I00S00PQ01")))).map
    (fun s => (s.tag, s.body, s.rxPkt)) = some ([], [],
      some { ptype := 1, nodeId := 0, commandId := 0, datasize := 0, payload := [], parity := 1 }) := by decide
theorem test_rxLf_fails : (after (exec .rxLf (holding (ascii "[MSP]") (ascii "T01N00I00S00PQ00")))).map
    (fun s => (s.body, s.rxPkt, s.returned)) = some ([], none, .rx (.decodeError .parityMismatch)) := by decide

/-! ### Encoder, SEND, timer, reset (sections 6 to 9) -/

theorem test_encode : encodeFrame .upper 0x03 0x12 0x34 [0xDE, 0xAD, 0xBE, 0xEF] = ascii "[MSP]T03N12I34S04PDEADBEEFQ03" ∧
    encodeFrame .lower 0x05 0x2A 0x10 [] = ascii "[MSP]T05N2aI10S00PQ3f" := by decide
theorem test_send_t1 : (after (exec (.send 4 1 [0, 0, 0, 1] 1000) State.reset)).map
    (fun s => (s.te, s.releaseAt, s.txPkt.parity, s.hist)) = some (true, 33271, 0,
      [.teAssert, .tx (ascii "[MSP]T04N00I01S04P00000001Q00" ++ [0x0D, 0x0A])]) := by decide
theorem test_send_t10_t8 : (after (exec (.send 4 1 [0, 0, 0, 1] 4294960000) State.reset)).map (·.releaseAt) =
    some 24975 ∧ (after (exec (.send 1 0 [] 5000) asserted)).map (fun s => (s.releaseAt, s.hist.length)) =
    some (28943, 2) := by decide
theorem test_holdcalc : [(9600, 4), (115200, 4), (10000001, 4), (1, 255)].map (fun x => holdTime 18 x.1 x.2) =
    [32271, 2666, 0, 5330000000] := by decide
theorem test_tick : (after (exec (.tick 33270) asserted)).map (·.te) = some true ∧
    (after (exec (.tick 33271) asserted)).map (fun s => (s.te, s.hist)) = some (false, [.teAssert, .teRelease]) := by decide
theorem test_reset : (after (exec .reset { asserted with tag := [0x5B], truncCnt := 16 })).map
    (fun s => (s.tag, s.truncCnt, s.te, s.hist)) = some ([], 0, false, [.teAssert, .teRelease]) := by decide

/-! ### Memories: a lookup is by index -/

theorem test_memory : ((holding [] [0x54, 0x30]).memory .body).wf = true ∧
    ((holding [] [0x54, 0x30]).memory .body) = [(0, 0x54), (1, 0x30)] ∧ Memory.wf [(1, 0x54), (1, 0x30)] = false := by decide

/-! ### Witnesses: the hypotheses of each statement are met -/

/-- Three of the four clauses of StepRunsDecodedInstruction at one state each, and a fetched word. -/
theorem witness_step : (({ State.reset with pending := [⟨.tick, [], 5⟩] } : State).pending = ⟨.tick, [], 5⟩ :: [] ∧
    decode ⟨.tick, [], 5⟩ = .ok (.tick 5)) ∧ decode ⟨.tick, [0x00], 5⟩ = .error .badLength ∧
    State.reset.pending = [] ∧ decodeTableWord 8 0x0A = some .rxLf := by decide
theorem witness_rx_byte : (({ State.reset with pending := [⟨.rx, [0x0A], 0⟩] } : State)).pending =
    ⟨.rx, [0x0A], 0⟩ :: [] := by decide
theorem witness_decode_encode : Instr.wellFormed Config.default (.send 1 0 (List.replicate 255 0) 4294967295) = true ∧
    decode ⟨.rst, [], 0⟩ = .ok .reset :=
  ⟨by simp only [Instr.wellFormed, List.length_replicate, payloadMax]; decide, by decide⟩
theorem witness_hex_rows : isHexDigit 0x47 = false ∧ isHexDigit 0x46 = true := by decide
theorem witness_not_injective : 0x41 ≤ (0x46 : Byte).toNat ∧ (0x46 : Byte).toNat ≤ 0x46 ∧ hexToNib 0x66 = hexToNib 0x46 ∧
    isHexDigit 0x2F = false ∧ hexToNib 0x2F = hexToNib 0x30 := by decide
theorem witness_parity : ([0xAB] : List Byte).length = (1 : Byte).toNat ∧ ([] : List Byte).length ≠ (1 : Byte).toNat ∧
    ([0xAB] : List Byte).Perm [0xAB] := ⟨rfl, by decide, .refl _⟩

/-- A valid packet with a payload, for the statements about ISVALID. -/
def valid : Packet :=
  { ptype := 4, nodeId := 0, commandId := 1, datasize := 4, payload := [0, 0, 0, 1], parity := 0 }

theorem witness_isvalid : valid.payload.length = valid.datasize.toNat := by decide
theorem witness_changes : exec (.isvalid valid) State.reset = .next { State.reset with returned := .flag true } ∧
    (1 : Byte) ≠ 0 ∧ 3 < valid.payload.length ∧ 0 ≠ 3 := ⟨rfl, by decide, by decide, by decide⟩
theorem witness_types : isAssignedType 0x06 = false ∧ isAssignedType 0x07 = true := by decide

/-- RX.DATA at the last tag index, the last body index and the full body. -/
theorem witness_rxData : (0x41 : Byte) ≠ 0x0A ∧ (0x41 : Byte) ≠ 0x0D ∧ (holding (ascii "[MSP") []).tag.length < 5 ∧
    ¬({ small 1 with tag := ascii "[MSP]" } : State).tag.length < 5 ∧
    ({ small 1 with tag := ascii "[MSP]" } : State).body.length < (small 1).cfg.bodyCap ∧
    ¬({ small 1 with tag := ascii "[MSP]", body := [0x54] } : State).body.length < (small 1).cfg.bodyCap := by decide
theorem witness_rxLf : (holding (ascii "[MSP") []).tag ≠ [0x5B, 0x4D, 0x53, 0x50, 0x5D] ∧
    (holding (ascii "[MSP]") []).tag = [0x5B, 0x4D, 0x53, 0x50, 0x5D] ∧ decodeLine [] = .fail .malformedLine ∧
    decodeLine (ascii "T01N00I00S00PQ01") =
      .ok { ptype := 1, nodeId := 0, commandId := 0, datasize := 0, payload := [], parity := 1 } := by decide
theorem witness_failure : ∃ t, exec .rxLf (holding (ascii "[MSP]") []) = .next t ∧
    t.returned = .rx (.decodeError .malformedLine) := ⟨_, rfl, by decide⟩
theorem witness_tagcmp : (ascii "[MSP]").length = 5 ∧ 5 ≤ 5 ∧ (ascii "[MSP").length ≠ 5 ∧ 5 < 6 := by decide
theorem witness_frame : (∀ b ∈ ascii "[MSP]T", b ≠ 0x0A ∧ b ≠ 0x0D) ∧
    (ascii "[MSP]T").take 5 = [0x5B, 0x4D, 0x53, 0x50, 0x5D] ∧
    decodeLine (((ascii "[MSP]T").drop 5).take State.reset.cfg.bodyCap) = .fail .malformedLine ∧
    (ascii "[MSP T").take 5 ≠ [0x5B, 0x4D, 0x53, 0x50, 0x5D] ∧
    decodeLine (((ascii "[MSP]T01N00I00S00PQ01").drop 5).take State.reset.cfg.bodyCap) =
      .ok { ptype := 1, nodeId := 0, commandId := 0, datasize := 0, payload := [], parity := 1 } := by decide
theorem witness_line_fed : AtLineBoundary State.reset ∧ (0x0A : Byte) ∉ ascii "[M" ++ [0x0D] ++ ascii "SP]" ∧
    State.reset.truncCnt ≤ 2 ^ State.reset.cfg.wCnt - 1 := ⟨⟨rfl, rfl⟩, by decide, by decide⟩
theorem witness_separators : (ascii "T01N00I00S00PQ01").length = (ascii "T01x00y00z00pq01").length ∧
    ∀ k ∈ [0, 1, 2, 4, 5, 7, 8, 10, 11, 14, 15, 16], (ascii "T01N00I00S00PQ01")[k]? = (ascii "T01x00y00z00pq01")[k]? := by
  decide

/-- The same, for every index, as SeparatorsNotCompared asks it. -/
theorem witness_separators_all (k : Nat) (h3 : k ≠ 3) (h6 : k ≠ 6) (h9 : k ≠ 9) (h12 : k ≠ 12)
    (hq : k ≠ 13 + 2 * (hexToByte (byteAt (ascii "T01N00I00S00PQ01") 10) (byteAt (ascii "T01N00I00S00PQ01") 11)).toNat) :
    (ascii "T01N00I00S00PQ01")[k]? = (ascii "T01x00y00z00pq01")[k]? := by
  have e : (hexToByte (byteAt (ascii "T01N00I00S00PQ01") 10) (byteAt (ascii "T01N00I00S00PQ01") 11)).toNat = 0 := by decide
  rw [e] at hq
  by_cases hk : k < 16
  · have h := witness_separators.2 k
    simp only [List.mem_cons, List.not_mem_nil, or_false] at h
    exact h (by omega)
  · rw [List.getElem?_eq_none (by rw [show (ascii "T01N00I00S00PQ01").length = 16 by decide]; omega),
      List.getElem?_eq_none (by rw [show (ascii "T01x00y00z00pq01").length = 16 by decide]; omega)]

theorem witness_hex_fallback : 1 ≤ 1 ∧ 1 < (ascii "TGa").length ∧ isHexDigit (ascii "TGa")[1] = false ∧
    0x61 ≤ ((ascii "TGa")[2]).toNat ∧ ((ascii "TGa")[2]).toNat ≤ 0x66 := by decide
theorem witness_decoded_good : (ascii "T01N00I00S00PQ01").length ≤ (small 16).cfg.bodyCap ∧
    decodeLine (ascii "T01N00I00S00PQ01") =
      .ok { ptype := 1, nodeId := 0, commandId := 0, datasize := 0, payload := [], parity := 1 } := by decide
theorem witness_payload_bounds : (List.replicate 255 (0 : Byte)).length ≤ 255 ∧
    255 < (List.replicate 256 (0 : Byte)).length := by
  simp only [List.length_replicate]
  decide
theorem witness_send : (List.replicate 255 (0 : Byte)).length ≤ 255 ∧
    (State.reset.cfg.teEn = true → 1 ≤ State.reset.cfg.baud) ∧ State.reset.cfg.timeFits 4294967295 = true :=
  ⟨by simp only [List.length_replicate]; decide, by decide, by decide⟩

/-- The clauses of SendDomain that concern an instance without TE and one with baud rate 0. -/
theorem witness_send_domain : ({ Config.default with baud := 0 } : Config).teEn = true ∧
    ({ Config.default with baud := 0 } : Config).baud = 0 ∧ ({ Config.default with teEn := false } : Config).teEn = false ∧
    ({ Config.default with teEn := false } : Config).timeFits 0 = true := by decide
theorem witness_holdcalc : 1 ≤ 1 ∧ 1 ≤ 10000001 ∧ 10000000 < 10000001 := by decide
theorem witness_tick : State.reset.cfg.timeFits 4294967295 = true ∧ State.reset.cfg.timeFits 4294967296 = false ∧
    asserted.te = true ∧ asserted.releaseAt ≤ 33271 := by decide

/-- A SEND whose deadline does not wrap, then an idle TICK before the deadline. -/
theorem witness_te_held : State.reset.cfg.teEn = true ∧
    (∃ s1, exec (.send 4 1 [0, 0, 0, 1] 1000) State.reset = .next s1 ∧
      ∃ t, run 1 { s1 with pending := [⟨.tick, [], 33270⟩] ++ [] } = .next t) ∧
    State.reset.cfg.timeFits (1000 + holdOf State.reset 4) = true ∧
    (∀ o ∈ [(⟨.tick, [], 33270⟩ : Transaction)], ∀ i, decode o = .ok i → (∀ p c pl n, i ≠ .send p c pl n) ∧ i ≠ .reset ∧
      ∀ n, i = .tick n → n < 1000 + holdOf State.reset 4) := by
  refine ⟨rfl, ⟨_, rfl, _, rfl⟩, by decide, ?_⟩
  intro o ho i hi
  obtain rfl := List.mem_singleton.1 ho
  obtain rfl : Instr.tick 33270 = i := by simpa [decode, noBytes] using hi
  refine ⟨by simp, by simp, fun n h => ?_⟩
  obtain rfl : 33270 = n := by simpa using h
  decide

theorem witness_inv : Inv State.reset := by
  refine ⟨by decide, by decide, by decide, by decide, by decide, ?_, ⟨by decide, by decide⟩, by decide, by decide, rfl⟩
  intro p h
  cases h

theorem witness_step_inv : Inv State.reset ∧ ∃ s', step State.reset = .next s' := ⟨witness_inv, _, rfl⟩

/-- For the frame statements: a completed step of each kind of writer. -/
theorem witness_writers : (∃ t, exec (.send 5 0x10 [] 0) State.reset = .next t ∧ State.reset.te = false ∧ t.te = true ∧
      t.txPkt ≠ State.reset.txPkt ∧ t.releaseAt ≠ State.reset.releaseAt) ∧
    (∃ t, exec (.tick 33271) asserted = .next t ∧ asserted.te = true ∧ t.te = false) ∧
    (∃ t, exec .rxLf (holding (ascii "[MSP]") (ascii "T01N00I00S00PQ01")) = .next t ∧
      (holding (ascii "[MSP]") (ascii "T01N00I00S00PQ01")).rxValid = false ∧ t.rxValid = true) ∧
    (∃ t, exec .reset { State.reset with rxPkt := some valid } = .next t ∧ t.rxValid = false) ∧
    (∃ t, exec (.rxData 0x41) { small 0 with tag := ascii "[MSP]" } = .next t ∧ t.truncCnt ≠ 0) ∧
    (∃ t, exec (.rxData 0x41) State.reset = .next t ∧ t.tag ≠ State.reset.tag) :=
  ⟨⟨_, rfl, by decide, by decide, by decide, by decide⟩, ⟨_, rfl, by decide, by decide⟩,
    ⟨_, rfl, by decide, by decide⟩, ⟨_, rfl, by decide⟩, ⟨_, rfl, by decide⟩, ⟨_, rfl, by decide⟩⟩

theorem witness_pure : ¬IsReceive .hex0 ∧ ¬IsTransmit .hex0 ∧ Instr.hex0 ≠ .reset ∧
    (∃ t, exec .hex0 State.reset = .next t) ∧ asserted.cfg = State.reset.cfg :=
  ⟨by simp [IsReceive], by simp [IsTransmit], by decide, ⟨_, rfl⟩, rfl⟩
theorem witness_completes : Instr.wellFormed State.reset.cfg (.send 1 0 [] 0) = true ∧
    (State.reset.cfg.teEn = true → 1 ≤ State.reset.cfg.baud) := by decide
theorem witness_one_result : IsReceive .rxCr ∧ ∃ t, exec .rxCr State.reset = .next t :=
  ⟨.inr (.inl rfl), _, rfl⟩
theorem witness_paths : IsReceive (.rxData 0x5B) ∧ IsTransmit (.tick 0) ∧
    (∃ a, exec (.rxData 0x5B) State.reset = .next a) ∧ ∃ b, exec (.tick 0) State.reset = .next b :=
  ⟨.inr (.inr ⟨_, rfl⟩), .inr ⟨_, rfl⟩, ⟨_, rfl⟩, _, rfl⟩
theorem witness_peer : (∃ sent, exec (.send 3 0x34 [0xDE] 0) State.reset = .next sent) ∧
    (∀ b ∈ [(0x0D : Byte)], b = 0x0D) ∧ State.reset.cfg.term = [0x0D] ++ [0x0A] ∧ AtLineBoundary State.reset ∧
    16 + 2 * ([0xDE] : List Byte).length ≤ (small 18).cfg.bodyCap ∧
    (small 18).truncCnt ≤ 2 ^ (small 18).cfg.wCnt - 1 :=
  ⟨⟨_, rfl⟩, by decide, by decide, ⟨rfl, rfl⟩, by decide, by decide⟩
theorem witness_truncated : exec (.encode 3 1 2 [0xAB]) (small 18) =
      .next { small 18 with returned := .bytes (ascii "[MSP]T03N01I02S01PABQAA") } ∧
    (small 18).cfg.bodyCap = 16 + 2 * ([0xAB] : List Byte).length ∧ (∀ b ∈ ascii "EXTRA", b ≠ 0x0A ∧ b ≠ 0x0D) :=
  ⟨rfl, by decide, by decide⟩

end Sys2Proof.Tests
end

namespace Sys2Proof.Machine

/-! ### The scope of an operation (00_scope.md R5 to R7)

What a step does with its transaction, what a pure operation may read, and which operations complete. -/

/-! #### Steps -/

/-- A step runs the instruction its next transaction decodes to, on the rest of the queue. -/
theorem step_of_decode_ok {s : State} {t : Transaction} {rest : List Transaction} {i : Instr}
    (hp : s.pending = t :: rest) (hd : decode t = .ok i) : step s = exec i { s with pending := rest } := by
  simp only [step, hp, hd]

/-- A step refuses a transaction its port cannot carry. -/
theorem step_of_decode_error {s : State} {t : Transaction} {rest : List Transaction} {why : DecodeRefusal}
    (hp : s.pending = t :: rest) (hd : decode t = .error why) : step s = .refused (.badTransaction why) := by
  simp only [step, hp, hd]

/-- With nothing pending the block is idle (60_exceptions.md R226). -/
theorem step_of_pending_nil {s : State} (hp : s.pending = []) : step s = .next s := by
  simp only [step, hp]

theorem decodeTableWord_eq_some_iff {nbits w : Nat} {i : Instr} :
    decodeTableWord nbits w = some i ↔ decode (tableTransaction nbits w) = .ok i := by
  unfold decodeTableWord
  cases decode (tableTransaction nbits w) <;> simp

/-- A fetched word runs next and leaves the queue as it was before the fetch. -/
theorem step_withFetchWord {s : State} {nbits w : Nat} {i : Instr} (h : decodeTableWord nbits w = some i) :
    step (s.withFetchWord nbits w) = exec i s :=
  step_of_decode_ok (rest := s.pending) rfl (decodeTableWord_eq_some_iff.1 h)

/-! #### Pure operations -/

/-- A meaning that can only return a value, and takes that value (and whether it completes) from the configuration alone. -/
def AnswersFromConfig (m : State → Host.Outcome State Fault Refusal) : Prop :=
  ∀ s t, m s = .next t → ∃ r, t = s.returning r ∧ ∀ u : State, u.cfg = s.cfg → m u = .next (u.returning r)

theorem answersFromConfig_answer (value : Config → Returned) :
    AnswersFromConfig (fun s => answer (value s.cfg) s) := by
  intro s t h
  exact ⟨value s.cfg, answer_next h, fun u hu => by simp only [hu, answer]⟩

/-- A value that the operands alone determine. -/
theorem answersFromConfig_const (r : Returned) : AnswersFromConfig (answer r) :=
  answersFromConfig_answer fun _ => r

/-- A condition on the operands alone adds no dependence on the state. -/
theorem AnswersFromConfig.requires {m : State → Host.Outcome State Fault Refusal} (hm : AnswersFromConfig m)
    (p : Bool) (why : Refusal) : AnswersFromConfig (fun s => requires p why (m s)) := by
  intro s t h
  obtain ⟨rfl, h⟩ := requires_next h
  exact hm s t h

/-- Every instruction that is no operation on the state answers from the configuration. FRAME reads `BODY_CAP`, the encoders
`HEX_CASE` and HOLDCALC `FIXED_OVERHEAD`; the others read nothing. -/
theorem exec_answersFromConfig {i : Instr} (hrx : ¬IsReceive i) (htx : ¬IsTransmit i) (hrst : i ≠ .reset) :
    AnswersFromConfig (exec i) := by
  cases i with
  | rxLf => exact absurd (.inl rfl) hrx
  | rxCr => exact absurd (.inr (.inl rfl)) hrx
  | rxData b => exact absurd (.inr (.inr ⟨b, rfl⟩)) hrx
  | send p c payload now => exact absurd (.inl ⟨p, c, payload, now, rfl⟩) htx
  | tick now => exact absurd (.inr ⟨now, rfl⟩) htx
  | reset => exact absurd rfl hrst
  | frame line => exact (answersFromConfig_answer fun c => .rx (lineResult c.bodyCap line)).requires _ _
  | nib2hex v => exact answersFromConfig_answer fun c => .byte (nibToHex c.hexCase v)
  | byte2hex b => exact answersFromConfig_answer fun c => .hex2 (byteToHex c.hexCase b).1 (byteToHex c.hexCase b).2
  | encode p n c payload =>
    exact (answersFromConfig_answer fun cfg => .bytes (encodeFrame cfg.hexCase p n c payload)).requires _ _
  | holdcalc baud ds =>
    exact (answersFromConfig_answer fun c => .number (holdTime c.fixedOverhead baud ds.toNat)).requires _ _
  | hexInvalid c => exact (answersFromConfig_const _).requires _ _
  | ptUnassigned t => exact (answersFromConfig_const _).requires _ _
  | parity p n c ds payload => exact (answersFromConfig_const _).requires _ _
  | isvalid pkt => exact (answersFromConfig_const _).requires _ _
  | tagcmp tag tagLen => exact (answersFromConfig_const _).requires _ _
  | _ => exact answersFromConfig_const _

/-! #### Completion -/

theorem requires_completes {p : Bool} {why : Refusal} {o : Host.Outcome State Fault Refusal} (hp : p = true)
    (ho : ∃ t, o = .next t) : ∃ t, requires p why o = .next t := by
  rw [hp, requires_true]
  exact ho

/-- The operand domain of an instruction is the condition its meaning requires; SEND asks for a baud rate as well. -/
theorem exec_completes_of_wellFormed {i : Instr} {s : State} (hwf : i.wellFormed s.cfg = true)
    (hbaud : ∀ p c payload now, i = .send p c payload now → s.cfg.teEn = true → 1 ≤ s.cfg.baud) :
    ∃ t, exec i s = .next t := by
  cases i with
  | rxData b => exact requires_completes hwf ⟨_, rfl⟩
  | send p c payload now =>
    obtain ⟨hlen, hnow⟩ : payload.length ≤ payloadMax ∧ s.cfg.timeFits now = true := by
      simpa [Instr.wellFormed] using hwf
    exact ⟨_, exec_send_next hlen (hbaud p c payload now rfl) hnow⟩
  | tick now => exact ⟨_, exec_tick_next hwf⟩
  | hexInvalid c => exact requires_completes hwf ⟨_, rfl⟩
  | ptUnassigned t => exact requires_completes hwf ⟨_, rfl⟩
  | frame line => exact requires_completes hwf ⟨_, rfl⟩
  | parity p n c ds payload => exact requires_completes hwf ⟨_, rfl⟩
  | isvalid pkt => exact requires_completes hwf ⟨_, rfl⟩
  | tagcmp tag tagLen => exact requires_completes hwf ⟨_, rfl⟩
  | encode p n c payload => exact requires_completes hwf ⟨_, rfl⟩
  | holdcalc baud ds => exact requires_completes hwf ⟨_, rfl⟩
  | _ => exact ⟨_, rfl⟩

/-! #### Results on `rx` -/

/-- However a line completes, one result other than `None` is returned, and the same one recorded
(42_line_parser.md R136). -/
theorem completeLine_result (s : State) :
    ∃ r : RxResult, r ≠ .none ∧ (completeLine s).returned = .rx r ∧ (completeLine s).hist = s.hist ++ [.rx r] := by
  obtain ⟨_, h⟩ | ⟨pkt, _, _, h⟩ | ⟨e, _, _, h⟩ := completeLine_cases s
  · exact ⟨.lineIgnored, by simp, by simp [h], by simp [h]⟩
  · exact ⟨.packetAccepted pkt, by simp, by simp [h], by simp [h]⟩
  · exact ⟨.decodeError e, by simp, by simp [h], by simp [h]⟩

/-! #### The statements -/

/-- Settles O43: the meaning of every instruction in question answers from the configuration. -/
theorem pureOperationsFrame : Obligations.PureOperationsFrame := by
  intro i s t hrx htx hrst h
  obtain ⟨r, rfl, hu⟩ := exec_answersFromConfig hrx htx hrst s t h
  exact ⟨rfl, hu⟩

/-- Settles O44, by cases on the instruction: its domain is what its meaning requires. -/
theorem wellFormedCompletes : Obligations.WellFormedCompletes :=
  fun _ _ hwf hbaud => exec_completes_of_wellFormed hwf hbaud

/-- Settles O45: each of the three operations ends in `State.endRx`, RX.LF with a result other than `None`. -/
theorem oneResultPerRxTransaction : Obligations.OneResultPerRxTransaction := by
  rintro i s t (rfl | rfl | ⟨b, rfl⟩) h
  · obtain rfl : completeLine s = t := Host.Outcome.next.inj h
    obtain ⟨r, hne, hret, hhist⟩ := completeLine_result s
    exact ⟨r, hret, hhist, by simp [hne]⟩
  · obtain rfl : s.endRx .none = t := Host.Outcome.next.inj h
    exact ⟨.none, by simp, by simp, by simp⟩
  · obtain rfl : (storeRxByte b s).endRx .none = t := Host.Outcome.next.inj (requires_next h).2
    exact ⟨.none, by simp, by simp, by simp⟩

/-- Settles O1: one lemma per outcome of the queue's head, and the fetched word as the head. -/
theorem stepRunsDecodedInstruction : Obligations.StepRunsDecodedInstruction :=
  ⟨fun _ _ _ _ => step_of_decode_ok, fun _ _ _ _ => step_of_decode_error, fun _ => step_of_pending_nil,
    fun _ _ _ _ => step_withFetchWord⟩

end Sys2Proof.Machine

namespace Sys2Proof.Machine

/-! ### The state and its writers (10_state.md R20 to R27, R33)

The whole next state of each composed operation, what every operation does to the flags and the packet registers, and the
invariant that every step keeps. -/

/-! #### Composed operations as one record update -/

/-- In Idle there is nothing to release (45_te_timer.md R198). -/
theorem State.releaseTe_of_idle {s : State} (h : s.te = false) : s.releaseTe = s := by
  cases s
  subst h
  rfl

/-- The whole effect of TICK (45_te_timer.md R195). -/
theorem checkRelease_eq (now : Nat) (s : State) : checkRelease now s =
    { s with
      te := s.te && !decide (s.releaseAt ≤ now)
      hist := s.hist ++ if s.te && decide (s.releaseAt ≤ now) then [.teRelease] else [] } := by
  unfold checkRelease releaseDue
  cases decide (s.releaseAt ≤ now) with
  | false => simp
  | true =>
    cases ht : s.te with
    | false => exact (State.releaseTe_of_idle ht).symm.trans (by simp [State.releaseTe, ht])
    | true => simp [State.releaseTe, ht]

/-- The whole effect of SEND's TE part (44_transmit.md R178, R179). -/
theorem startHold_eq (now ds : Nat) (s : State) : startHold now ds s =
    { s with
      te := s.te || s.cfg.teEn
      releaseAt := if s.cfg.teEn then releaseTime s.cfg now (holdOf s ds) else s.releaseAt
      hist := s.hist ++ if s.cfg.teEn && !s.te then [.teAssert] else [] } := by
  cases hc : s.cfg.teEn with
  | false => simp [startHold_off now ds hc]
  | true => cases ht : s.te <;> simp [startHold_on now ds hc, State.assertTe, ht]

/-- The whole effect of SEND (44_transmit.md R175 to R179). -/
theorem sendPacket_eq (p c : Byte) (payload : List Byte) (now : Nat) (s : State) : sendPacket p c payload now s =
    { s with
      txPkt := outboundPacket s.cfg.nodeId p c payload
      te := s.te || s.cfg.teEn
      releaseAt := if s.cfg.teEn then releaseTime s.cfg now (holdOf s payload.length) else s.releaseAt
      hist := s.hist ++ (if s.cfg.teEn && !s.te then [.teAssert] else []) ++
        [.tx (encodeFrame s.cfg.hexCase p s.cfg.nodeId c payload ++ s.cfg.term)] } := by
  unfold sendPacket
  rw [startHold_eq]
  rfl

/-- The whole effect of RX.LF: `rx_pkt` is the accepted packet, or stays when the result is another
(42_line_parser.md R136, R137). -/
theorem completeLine_eq (s : State) : ∃ (r : RxResult) (rx : Option Packet),
    completeLine s =
      { s with tag := [], body := [], rxPkt := rx, hist := s.hist ++ [.rx r], returned := .rx r } ∧
    ((∃ pkt, rx = some pkt ∧ r = .packetAccepted pkt) ∨ (rx = s.rxPkt ∧ ∀ pkt, r ≠ .packetAccepted pkt)) := by
  obtain ⟨_, h⟩ | ⟨pkt, _, _, h⟩ | ⟨e, _, _, h⟩ := completeLine_cases s
  · exact ⟨.lineIgnored, s.rxPkt, h, .inr ⟨rfl, by simp⟩⟩
  · exact ⟨.packetAccepted pkt, some pkt, h, .inl ⟨pkt, rfl, rfl⟩⟩
  · exact ⟨.decodeError e, s.rxPkt, h, .inr ⟨rfl, by simp⟩⟩

/-! #### Writers -/

/-- What an operation does to `te` (10_state.md R27). -/
theorem exec_te_cases {i : Instr} {s t : State} (h : exec i s = .next t) :
    (∃ p c payload now, i = .send p c payload now ∧ t.te = (s.te || s.cfg.teEn)) ∨
    (∃ now, i = .tick now ∧ t.te = (s.te && !decide (s.releaseAt ≤ now))) ∨
    (i = .reset ∧ t.te = false) ∨
    (¬IsTransmit i ∧ i ≠ .reset ∧ t.te = s.te) := by
  obtain ⟨_, htx, hrst, r, rfl⟩ | ⟨b, rfl, _, rfl⟩ | ⟨rfl, rfl⟩ | ⟨rfl, rfl⟩ |
    ⟨p, c, payload, now, rfl, _, _, _, rfl⟩ | ⟨now, rfl, _, rfl⟩ | ⟨rfl, rfl⟩ := exec_next_cases h
  · exact .inr (.inr (.inr ⟨htx, hrst, rfl⟩))
  · exact .inr (.inr (.inr ⟨by simp [IsTransmit], by simp, by simp⟩))
  · exact .inr (.inr (.inr ⟨by simp [IsTransmit], by simp, rfl⟩))
  · obtain ⟨r, rx, hs, _⟩ := completeLine_eq s
    exact .inr (.inr (.inr ⟨by simp [IsTransmit], by simp, by rw [hs]⟩))
  · exact .inl ⟨p, c, payload, now, rfl, by simp [sendPacket_eq]⟩
  · exact .inr (.inl ⟨now, rfl, by simp [checkRelease_eq]⟩)
  · exact .inr (.inr (.inl ⟨rfl, rfl⟩))

/-- What an operation does to `rx_pkt` (10_state.md R22, R27). -/
theorem exec_rxPkt_cases {i : Instr} {s t : State} (h : exec i s = .next t) :
    (i = .reset ∧ t.rxPkt = none) ∨
    (i = .rxLf ∧ ∃ pkt, t.rxPkt = some pkt ∧ t.returned = .rx (.packetAccepted pkt)) ∨
    (i ≠ .reset ∧ t.rxPkt = s.rxPkt ∧ (i = .rxLf → ∀ pkt, t.returned ≠ .rx (.packetAccepted pkt))) := by
  obtain ⟨hrx, _, hrst, r, rfl⟩ | ⟨b, rfl, _, rfl⟩ | ⟨rfl, rfl⟩ | ⟨rfl, rfl⟩ |
    ⟨p, c, payload, now, rfl, _, _, _, rfl⟩ | ⟨now, rfl, _, rfl⟩ | ⟨rfl, rfl⟩ := exec_next_cases h
  · exact .inr (.inr ⟨hrst, rfl, fun hlf => absurd (.inl hlf) hrx⟩)
  · exact .inr (.inr ⟨by simp, by simp, by simp⟩)
  · exact .inr (.inr ⟨by simp, rfl, by simp⟩)
  · obtain ⟨r, rx, hs, ⟨pkt, rfl, rfl⟩ | ⟨rfl, hne⟩⟩ := completeLine_eq s
    · exact .inr (.inl ⟨rfl, pkt, by rw [hs], by rw [hs]⟩)
    · exact .inr (.inr ⟨by simp, by rw [hs], fun _ pkt => by simp [hs, hne]⟩)
  · exact .inr (.inr ⟨by simp, by simp [sendPacket_eq], by simp⟩)
  · exact .inr (.inr ⟨by simp, by simp [checkRelease_eq], by simp⟩)
  · exact .inl ⟨rfl, rfl⟩

/-- What an operation does to `tx_pkt` (10_state.md R22). -/
theorem exec_txPkt_cases {i : Instr} {s t : State} (h : exec i s = .next t) :
    i = .reset ∨
    (∃ p c payload now, i = .send p c payload now ∧ t.txPkt = outboundPacket s.cfg.nodeId p c payload) ∨
    ((∀ p c payload now, i ≠ .send p c payload now) ∧ t.txPkt = s.txPkt) := by
  obtain ⟨_, htx, _, r, rfl⟩ | ⟨b, rfl, _, rfl⟩ | ⟨rfl, rfl⟩ | ⟨rfl, rfl⟩ |
    ⟨p, c, payload, now, rfl, _, _, _, rfl⟩ | ⟨now, rfl, _, rfl⟩ | ⟨rfl, rfl⟩ := exec_next_cases h
  · exact .inr (.inr ⟨fun p c payload now hi => htx (.inl ⟨p, c, payload, now, hi⟩), rfl⟩)
  · exact .inr (.inr ⟨by simp, by simp⟩)
  · exact .inr (.inr ⟨by simp, rfl⟩)
  · obtain ⟨r, rx, hs, _⟩ := completeLine_eq s
    exact .inr (.inr ⟨by simp, by rw [hs]⟩)
  · exact .inr (.inl ⟨p, c, payload, now, rfl, by simp [sendPacket_eq]⟩)
  · exact .inr (.inr ⟨by simp, by simp [checkRelease_eq]⟩)
  · exact .inl rfl

/-- Who sets and who clears `te` (10_state.md R27). -/
theorem exec_te_writers {i : Instr} {s t : State} (h : exec i s = .next t) :
    (s.te = false → t.te = true → s.cfg.teEn = true ∧ ∃ p c payload now, i = .send p c payload now) ∧
    (∀ p c payload now, i = .send p c payload now → s.cfg.teEn = true → t.te = true) ∧
    (s.te = true → t.te = false → i = .reset ∨ ∃ now, i = .tick now ∧ s.releaseAt ≤ now) ∧
    (∀ now, i = .tick now → s.releaseAt ≤ now → t.te = false) ∧ (i = .reset → t.te = false) := by
  obtain ⟨p, c, payload, now, rfl, hte⟩ | ⟨now, rfl, hte⟩ | ⟨rfl, hte⟩ | ⟨htx, hrst, hte⟩ := exec_te_cases h
  · simp +contextual [hte]
  · simp +contextual [hte]
  · simp [hte]
  · obtain ⟨hsend, htick⟩ := not_or.1 htx
    exact ⟨fun h0 h1 => absurd h1 (by simp [hte, h0]), fun p c payload now hi => absurd ⟨p, c, payload, now, hi⟩ hsend,
      fun h1 h0 => absurd h0 (by simp [hte, h1]), fun now hi => absurd ⟨now, hi⟩ htick, fun hi => absurd hi hrst⟩

/-- Who sets and who clears `rx_pkt.valid` (10_state.md R27). -/
theorem exec_rxValid_writers {i : Instr} {s t : State} (h : exec i s = .next t) :
    (s.rxValid = false → t.rxValid = true → i = .rxLf ∧ ∃ pkt, t.returned = .rx (.packetAccepted pkt)) ∧
    (i = .rxLf → ∀ pkt, t.returned = .rx (.packetAccepted pkt) → t.rxValid = true) ∧
    (s.rxValid = true → t.rxValid = false → i = .reset) ∧ (i = .reset → t.rxValid = false) := by
  simp only [State.rxValid_eq]
  obtain ⟨rfl, hrx⟩ | ⟨rfl, pkt, hrx, hret⟩ | ⟨hrst, hrx, hno⟩ := exec_rxPkt_cases h
  · simp [hrx]
  · simp [hrx, hret]
  · rw [hrx]
    exact ⟨fun h0 h1 => absurd h1 (by simp [h0]), fun hi pkt hret => absurd hret (hno hi pkt),
      fun h1 h0 => absurd h1 (by simp [h0]), fun hi => absurd hi hrst⟩

/-! #### Good packets -/

/-- The packet SEND builds, its parity as the exclusive-or of its other fields (41_parity.md R121). -/
theorem outboundPacket_eq (node p c : Byte) (payload : List Byte) : outboundPacket node p c payload =
    { ptype := p, nodeId := node, commandId := c, datasize := BitVec.ofNat 8 payload.length, payload := payload,
      parity := xorAll (p :: node :: c :: BitVec.ofNat 8 payload.length :: payload) } := by
  simp only [outboundPacket, parityOf_eq_xorAll]

theorem packetGood_iff {p : Packet} :
    PacketGood p ↔ p.payload.length = p.datasize.toNat ∧ p.parity = packetParity p := by
  simp [PacketGood, Packet.sized, packetValid]

theorem packetGood_zeroPacket : PacketGood zeroPacket := ⟨rfl, rfl⟩

/-- The packet SEND builds is valid (44_transmit.md R176). -/
theorem packetGood_outboundPacket {node p c : Byte} {payload : List Byte} (h : payload.length ≤ payloadMax) :
    PacketGood (outboundPacket node p c payload) := by
  have hmax : payload.length < 2 ^ 8 := Nat.lt_succ_of_le h
  exact packetGood_iff.2 ⟨(Nat.mod_eq_of_lt hmax).symm, rfl⟩

/-- What DECODE accepts is valid and its length is the one its datasize gives (43_decode.md R153, R156). -/
theorem decodeLine_ok_good {body : List Byte} {pkt : Packet} (h : decodeLine body = .ok pkt) :
    PacketGood pkt ∧ body.length = 16 + 2 * pkt.datasize.toNat := by
  obtain ⟨_, hlen, rfl, hpar⟩ := decodeLine_ok h
  exact ⟨packetGood_iff.2 ⟨by simp [packetAt], hpar.symm⟩, hlen⟩

/-! #### The invariant under each named update -/

section

variable {s : State}

theorem Inv.returning (h : Inv s) (r : Returned) : Inv (s.returning r) := { h with }

theorem Inv.setPending (h : Inv s) (ts : List Transaction) : Inv { s with pending := ts } := { h with }

/-- An `evt` entry is no edge of `te`. -/
theorem Inv.endRx (h : Inv s) (r : RxResult) : Inv (s.endRx r) :=
  { h with te_history := by simp [teLevel_append, h.te_history, teLevel] }

/-- A `tx` entry is no edge of `te`. -/
theorem Inv.emitTx (h : Inv s) (bs : List Byte) : Inv (s.emitTx bs) :=
  { h with te_history := by simp [teLevel_append, h.te_history, teLevel] }

theorem Inv.clearLine (h : Inv s) : Inv s.clearLine :=
  { h with
    tag_le := Nat.zero_le _
    body_le := Nat.zero_le _
    body_after_tag := fun _ => rfl
    no_break := by simp }

theorem Inv.storeTag (h : Inv s) {b : Byte} (hb : isLineBreak b = false) (hroom : s.tag.length < tagLength) :
    Inv (s.storeTag b) :=
  { h with
    tag_le := by simpa using hroom
    body_after_tag := fun _ => h.body_after_tag hroom
    no_break := by
      have hempty : s.body = [] := h.body_after_tag hroom
      simpa [hempty, or_imp, forall_and, hb] using h.no_break }

theorem Inv.storeBody (h : Inv s) {b : Byte} (hb : isLineBreak b = false) (htag : ¬s.tag.length < tagLength)
    (hroom : s.body.length < s.cfg.bodyCap) : Inv (s.storeBody b) :=
  { h with
    body_le := by simpa using hroom
    body_after_tag := fun hlt => absurd hlt htag
    no_break := by simpa [or_imp, forall_and, hb] using h.no_break }

theorem Inv.countDropped (h : Inv s) : Inv s.countDropped :=
  { h with trunc_le := Nat.min_le_right _ _ }

theorem Inv.acceptPacket (h : Inv s) {pkt : Packet} (hpkt : PacketGood pkt)
    (hfits : 16 + 2 * pkt.datasize.toNat ≤ s.cfg.bodyCap) : Inv (s.acceptPacket pkt) :=
  { h with
    rx_good := by
      rintro _ ⟨⟩
      exact ⟨hpkt, hfits⟩ }

theorem Inv.setTxPacket (h : Inv s) {pkt : Packet} (hpkt : PacketGood pkt) : Inv (s.setTxPacket pkt) :=
  { h with tx_good := hpkt }

/-- `TeAssert` is recorded only as an edge, and either way the history ends asserted (10_state.md R33). -/
theorem Inv.assertTe (h : Inv s) {deadline : Nat} (hen : s.cfg.teEn = true) (hfits : s.cfg.timeFits deadline = true) :
    Inv (s.assertTe deadline) :=
  { h with
    te_configured := fun _ => hen
    release_fits := fun _ => hfits
    te_history := by
      cases ht : s.te <;> simp [ht, h.te_history, teLevel_append, teLevel] }

/-- `TeRelease` is recorded only as an edge, and either way the history ends released (10_state.md R33). -/
theorem Inv.releaseTe (h : Inv s) : Inv s.releaseTe :=
  { h with
    te_configured := by simp
    release_fits := by simp
    te_history := by
      cases ht : s.te <;> simp [ht, h.te_history, teLevel_append, teLevel] }

theorem Inv.resetRegisters (h : Inv s) : Inv s.resetRegisters :=
  { h.clearLine with
    trunc_le := Nat.zero_le _
    rx_good := nofun
    tx_good := packetGood_zeroPacket }

/-! #### The invariant under each operation -/

theorem Inv.storeRxByte (h : Inv s) {b : Byte} (hb : isLineBreak b = false) : Inv (storeRxByte b s) := by
  by_cases htag : s.tag.length < tagLength
  · rw [storeRxByte_tag b htag]
    exact h.storeTag hb htag
  · by_cases hbody : s.body.length < s.cfg.bodyCap
    · rw [storeRxByte_body b htag hbody]
      exact h.storeBody hb htag hbody
    · rw [storeRxByte_full b htag hbody]
      exact h.countDropped

/-- An accepted packet is good because DECODE accepted it, and fits because its line did. -/
theorem Inv.completeLine (h : Inv s) : Inv (completeLine s) := by
  obtain ⟨_, hs⟩ | ⟨pkt, _, hdec, hs⟩ | ⟨e, _, _, hs⟩ := completeLine_cases s
  · rw [hs]
    exact h.clearLine.endRx _
  · obtain ⟨hgood, hlen⟩ := decodeLine_ok_good hdec
    rw [hs]
    exact (h.acceptPacket hgood (hlen ▸ h.body_le)).clearLine.endRx _
  · rw [hs]
    exact h.clearLine.endRx _

theorem Inv.startHold (h : Inv s) (now ds : Nat) : Inv (startHold now ds s) := by
  cases hen : s.cfg.teEn with
  | true =>
    rw [startHold_on now ds hen]
    exact h.assertTe hen (releaseTime_fits _ _ _)
  | false =>
    rw [startHold_off now ds hen]
    exact h

theorem Inv.sendPacket (h : Inv s) (p c : Byte) {payload : List Byte} (hlen : payload.length ≤ payloadMax) (now : Nat) :
    Inv (sendPacket p c payload now s) :=
  ((h.setTxPacket (packetGood_outboundPacket hlen)).startHold now payload.length).emitTx _

theorem Inv.checkRelease (h : Inv s) (now : Nat) : Inv (checkRelease now s) := by
  unfold Machine.checkRelease
  split
  · exact h.releaseTe
  · exact h

/-- Every operation that completes keeps the invariant. -/
theorem Inv.exec {i : Instr} {t : State} (h : Inv s) (hx : exec i s = .next t) : Inv t := by
  obtain ⟨_, _, _, r, rfl⟩ | ⟨b, rfl, hb, rfl⟩ | ⟨rfl, rfl⟩ | ⟨rfl, rfl⟩ |
    ⟨p, c, payload, now, rfl, hlen, _, _, rfl⟩ | ⟨now, rfl, _, rfl⟩ | ⟨rfl, rfl⟩ := exec_next_cases hx
  · exact h.returning r
  · exact (h.storeRxByte hb).endRx _
  · exact h.endRx _
  · exact h.completeLine
  · exact (h.sendPacket p c hlen now).returning _
  · exact (h.checkRelease now).returning _
  · exact h.releaseTe.resetRegisters.returning _

end

/-! #### The statements -/

/-- Settles O38: a step is idle or one operation, and every operation is made of named updates that keep the invariant. -/
theorem stepKeepsInv : Obligations.StepKeepsInv := by
  intro s s' hinv hstep
  obtain ⟨_, rfl⟩ | ⟨_, rest, _, _, _, hx⟩ := step_next_cases hstep
  · exact hinv
  · exact (hinv.setPending rest).exec hx

/-- Settles O27: the line's length bounds the datasize, which is a byte. -/
theorem decodedPacketIsGood : Obligations.DecodedPacketIsGood := by
  intro c body pkt hcap hdec
  obtain ⟨hgood, hlen⟩ := decodeLine_ok_good hdec
  have hbyte : pkt.datasize.toNat < 2 ^ 8 := pkt.datasize.isLt
  refine ⟨hgood, hlen, min 255 ((c.bodyCap - 16) / 2), if_pos (by omega), by omega⟩

/-- Settles O39: the writers of `te` and those of `rx_pkt.valid`. -/
theorem flagWriters : Obligations.FlagWriters := by
  refine ⟨rfl, rfl, fun i s t h => ?_⟩
  obtain ⟨hset, hsend, hclear, htick, hreset⟩ := exec_te_writers h
  obtain ⟨hset', haccept, hclear', hreset'⟩ := exec_rxValid_writers h
  exact ⟨hset, hsend, hclear, htick, hset', haccept, hclear', fun hi => ⟨hreset hi, hreset' hi⟩⟩

/-- Settles O40: the writers of `tx_pkt` and those of `rx_pkt`. -/
theorem packetRegisterWriters : Obligations.PacketRegisterWriters := by
  intro i s t h hrst
  refine ⟨fun hne => ?_, fun p c payload now hi => ?_, fun hne => ?_, fun hi pkt hret => ?_⟩
  · obtain hi | ⟨p, c, payload, now, hi, _⟩ | ⟨_, htx⟩ := exec_txPkt_cases h
    · exact absurd hi hrst
    · exact ⟨p, c, payload, now, hi⟩
    · exact absurd htx hne
  · subst hi
    obtain hi | ⟨_, _, _, _, ⟨⟩, htx⟩ | ⟨hi, _⟩ := exec_txPkt_cases h
    · exact absurd hi hrst
    · rw [htx, outboundPacket_eq]
    · exact absurd rfl (hi p c payload now)
  · obtain ⟨hi, _⟩ | hlf | ⟨_, hrx, _⟩ := exec_rxPkt_cases h
    · exact absurd hi hrst
    · exact hlf
    · exact absurd hrx hne
  · obtain ⟨hi, _⟩ | ⟨_, pkt', hrx, hret'⟩ | ⟨_, _, hno⟩ := exec_rxPkt_cases h
    · exact absurd hi hrst
    · obtain rfl : pkt = pkt' := by simpa [hret] using hret'
      exact hrx
    · exact absurd hret (hno hi pkt)

/-- Settles O41, by cases on the operation: each writes what its record update names. -/
theorem registerWriters : Obligations.RegisterWriters := by
  intro i s t h
  obtain ⟨_, _, _, r, rfl⟩ | ⟨b, rfl, _, rfl⟩ | ⟨rfl, rfl⟩ | ⟨rfl, rfl⟩ |
    ⟨p, c, payload, now, rfl, _, _, _, rfl⟩ | ⟨now, rfl, _, rfl⟩ | ⟨rfl, rfl⟩ := exec_next_cases h
  · simp
  · simp
  · simp
  · obtain ⟨r, rx, hs, _⟩ := completeLine_eq s
    simp [hs]
  · simp [sendPacket_eq]
  · simp [checkRelease_eq]
  · cases hte : s.te <;> simp [hte]

/-- Settles O36: every register already holds the value RESET writes. -/
theorem powerOnIsReset : Obligations.PowerOnIsReset := ⟨rfl, rfl, rfl, rfl, rfl, rfl, rfl, rfl⟩

/-- Settles O37: the registers are empty, zero and released, and the zero packet is good. -/
theorem invAtReset : Obligations.InvAtReset where
  tag_le := Nat.zero_le _
  body_le := Nat.zero_le _
  body_after_tag := fun _ => rfl
  no_break := nofun
  trunc_le := Nat.zero_le _
  rx_good := nofun
  tx_good := packetGood_zeroPacket
  te_configured := nofun
  release_fits := nofun
  te_history := rfl

end Sys2Proof.Machine

namespace Sys2Proof.Machine

/-! ### The buffers and the two paths (20_memory.md R50, R57, R59, R62)

Which bytes of the four buffers an operation leaves, and that an operation of one path neither reads nor writes what the
other path writes. -/

/-! #### Bytes of a buffer -/

/-- A space's bytes are those of the register that holds its buffer (20_memory.md R50). -/
theorem State.readByte_congr {s t : State} {sp : Space} (h : t.buffer sp = s.buffer sp) (a : Nat) :
    t.readByte sp a = s.readByte sp a := by
  unfold State.readByte
  rw [h]

/-- Storing a tag byte writes the first free index of the tag buffer and no other (42_line_parser.md R132). -/
theorem State.readByte_storeTag (s : State) (b : Byte) (sp : Space) (a : Nat) :
    (s.storeTag b).readByte sp a = if sp = .tag ∧ a = s.tagLen then some b else s.readByte sp a := by
  cases sp with
  | tag => exact (memWrite_end_read s.tag b a).trans (if_congr (by simp) rfl rfl)
  | body => rfl
  | rxPayload => rfl
  | txPayload => rfl

/-- Storing a body byte writes the first free index of the body buffer and no other (42_line_parser.md R132). -/
theorem State.readByte_storeBody (s : State) (b : Byte) (sp : Space) (a : Nat) :
    (s.storeBody b).readByte sp a = if sp = .body ∧ a = s.bodyLen then some b else s.readByte sp a := by
  cases sp with
  | body => exact (memWrite_end_read s.body b a).trans (if_congr (by simp) rfl rfl)
  | tag => rfl
  | rxPayload => rfl
  | txPayload => rfl

/-- Where RX.DATA's byte can be read, by line position: tag, body, or nowhere (42_line_parser.md R132, R134). -/
theorem readByte_storeRxByte (b : Byte) (s : State) (sp : Space) (a : Nat) :
    (storeRxByte b s).readByte sp a =
      if sp = .tag ∧ s.tagLen < 5 ∧ a = s.tagLen then some b
      else if sp = .body ∧ 5 ≤ s.tagLen ∧ s.bodyLen < s.cfg.bodyCap ∧ a = s.bodyLen then some b
      else s.readByte sp a := by
  by_cases htag : s.tagLen < 5
  · rw [storeRxByte_tag b htag, State.readByte_storeTag]
    exact if_congr (by simp only [htag, true_and]) rfl (if_neg fun hb => Nat.not_le.2 htag hb.2.1).symm
  · rw [if_neg fun ht => htag ht.2.1]
    by_cases hroom : s.bodyLen < s.cfg.bodyCap
    · rw [storeRxByte_body b htag hroom, State.readByte_storeBody]
      exact if_congr (by simp only [Nat.not_lt.1 htag, hroom, true_and]) rfl rfl
    · rw [storeRxByte_full b htag hroom, if_neg fun hb => hroom hb.2.2.1]
      exact State.readByte_congr (by cases sp <;> rfl) a

/-- RX.LF empties the line, and the inbound payload stays unless a packet is accepted (42_line_parser.md R136, R137). -/
theorem readByte_completeLine (s : State) (a : Nat) :
    (completeLine s).readByte .tag a = none ∧ (completeLine s).readByte .body a = none ∧
    (completeLine s).readByte .txPayload a = s.readByte .txPayload a ∧
    ((∀ pkt, (completeLine s).returned ≠ .rx (.packetAccepted pkt)) →
      (completeLine s).readByte .rxPayload a = s.readByte .rxPayload a) := by
  obtain ⟨r, rx, hs, ⟨pkt, _, rfl⟩ | ⟨rfl, _⟩⟩ := completeLine_eq s
  · rw [hs]
    exact ⟨rfl, rfl, rfl, fun hno => absurd rfl (hno pkt)⟩
  · rw [hs]
    exact ⟨rfl, rfl, rfl, fun _ => rfl⟩

/-- Only RX.DATA, RX.LF and RESET write a byte of the inbound buffers (20_memory.md R57, R59). -/
theorem exec_keeps_inbound_bytes {i : Instr} {s t : State} (h : exec i s = .next t) (hlf : i ≠ .rxLf) (hrst : i ≠ .reset)
    (hdata : ∀ b, i ≠ .rxData b) {sp : Space} (hsp : sp ≠ .txPayload) (a : Nat) : t.readByte sp a = s.readByte sp a := by
  obtain ⟨hline, _⟩ := registerWriters i s t h
  have hno : ¬(i = .rxLf ∨ i = .reset ∨ ∃ b, i = .rxData b) := by simp [hlf, hrst, hdata]
  obtain ⟨htag, hbody⟩ : t.tag = s.tag ∧ t.body = s.body := by simpa [not_or] using mt hline hno
  have hrx : t.rxPkt = s.rxPkt := by
    obtain ⟨hi, _⟩ | ⟨hi, _⟩ | ⟨_, hrx, _⟩ := exec_rxPkt_cases h
    · exact absurd hi hrst
    · exact absurd hi hlf
    · exact hrx
  refine State.readByte_congr ?_ a
  cases sp with
  | tag => exact htag
  | body => exact hbody
  | rxPayload => simp [hrx]
  | txPayload => exact absurd rfl hsp

/-- Only SEND and RESET write a byte of the outbound buffer; SEND leaves its payload there (20_memory.md R57). -/
theorem exec_outbound_bytes {i : Instr} {s t : State} (h : exec i s = .next t) (hrst : i ≠ .reset) (a : Nat) :
    (∃ p c payload now, i = .send p c payload now ∧ t.readByte .txPayload a = payload[a]?) ∨
    ((∀ p c payload now, i ≠ .send p c payload now) ∧ t.readByte .txPayload a = s.readByte .txPayload a) := by
  obtain hi | ⟨p, c, payload, now, hi, htx⟩ | ⟨hno, htx⟩ := exec_txPkt_cases h
  · exact absurd hi hrst
  · exact .inl ⟨p, c, payload, now, hi, by simp [State.readByte, htx, outboundPacket]⟩
  · exact .inr ⟨hno, State.readByte_congr (by simp [htx]) a⟩

/-! #### What one path reads and writes -/

/-- `u` differs from `s` only in elements that no receive operation reads. -/
def SameReceive (s u : State) : Prop :=
  ∃ txPkt te releaseAt hist returned pending, u = { s with txPkt, te, releaseAt, hist, returned, pending }

/-- `u` differs from `s` only in elements that no transmit operation reads. -/
def SameTransmit (s u : State) : Prop :=
  ∃ tag body truncCnt rxPkt hist returned pending, u = { s with tag, body, truncCnt, rxPkt, hist, returned, pending }

/-- `u` after a receive operation that leaves the receive registers as in `a` and gives the result `r`. -/
def State.received (u a : State) (r : RxResult) : State :=
  { u with
    tag := a.tag, body := a.body, truncCnt := a.truncCnt, rxPkt := a.rxPkt
    hist := u.hist ++ [.rx r], returned := .rx r }

/-- `u` after a transmit operation that leaves the transmit registers as in `b` and records `es`. -/
def State.transmitted (u b : State) (es : List Event) : State :=
  { u with
    txPkt := b.txPkt, te := b.te, releaseAt := b.releaseAt
    hist := u.hist ++ es, returned := .nothing }

/-- What RX.DATA stores, and where, depends on the receive registers alone. -/
theorem storeRxByte_received {s u : State} (h : SameReceive s u) (b : Byte) :
    (storeRxByte b u).endRx .none = u.received (storeRxByte b s) .none := by
  obtain ⟨_, _, _, _, _, _, rfl⟩ := h
  by_cases htag : s.tag.length < tagLength
  · simp only [storeRxByte, State.tagLen_eq, htag, if_true]
    rfl
  · by_cases hroom : s.body.length < s.cfg.bodyCap
    · simp only [storeRxByte, State.tagLen_eq, State.bodyLen_eq, htag, hroom, if_true, if_false]
      rfl
    · simp only [storeRxByte, State.tagLen_eq, State.bodyLen_eq, htag, hroom, if_false]
      rfl

/-- How a line completes depends on the receive registers alone. -/
theorem completeLine_received (s : State) :
    ∃ r, ∀ u, SameReceive s u → completeLine u = u.received (completeLine s) r := by
  obtain ⟨ht, hs⟩ | ⟨pkt, ht, hd, hs⟩ | ⟨e, ht, hd, hs⟩ := completeLine_cases s
  · refine ⟨.lineIgnored, ?_⟩
    rintro _ ⟨_, _, _, _, _, _, rfl⟩
    rw [hs]
    simp only [completeLine, State.tagLen_eq, ht]
    rfl
  · refine ⟨.packetAccepted pkt, ?_⟩
    rintro _ ⟨_, _, _, _, _, _, rfl⟩
    rw [hs]
    simp only [completeLine, State.tagLen_eq, State.bodyLen_eq, memRead_all, ht, hd]
    rfl
  · refine ⟨.decodeError e, ?_⟩
    rintro _ ⟨_, _, _, _, _, _, rfl⟩
    rw [hs]
    simp only [completeLine, State.tagLen_eq, State.bodyLen_eq, memRead_all, ht, hd]
    rfl

/-- A receive operation reads and writes only the receive registers and its output (20_memory.md R62). -/
theorem exec_received {i : Instr} {s a : State} (hi : IsReceive i) (h : exec i s = .next a) :
    ∃ r, ∀ u, SameReceive s u → exec i u = .next (u.received a r) := by
  obtain rfl | rfl | ⟨b, rfl⟩ := hi
  · obtain rfl : completeLine s = a := Host.Outcome.next.inj h
    obtain ⟨r, hr⟩ := completeLine_received s
    exact ⟨r, fun u hu => congrArg Host.Outcome.next (hr u hu)⟩
  · obtain rfl : s.endRx .none = a := Host.Outcome.next.inj h
    refine ⟨.none, ?_⟩
    rintro _ ⟨_, _, _, _, _, _, rfl⟩
    rfl
  · obtain ⟨hb, h⟩ := requires_next h
    obtain rfl : (storeRxByte b s).endRx .none = a := Host.Outcome.next.inj h
    refine ⟨.none, fun u hu => ?_⟩
    rw [exec_rxData_next u (by simpa using hb), storeRxByte_received hu]
    rfl

/-- What SEND sends and schedules depends on the transmit registers alone, and it gives no `evt` result. -/
theorem sendPacket_transmitted (p c : Byte) (payload : List Byte) (now : Nat) (s : State) :
    ∃ es, evtOf es = [] ∧ ∀ u, SameTransmit s u →
      (sendPacket p c payload now u).returning .nothing = u.transmitted (sendPacket p c payload now s) es := by
  refine ⟨(if s.cfg.teEn && !s.te then [.teAssert] else []) ++
    [.tx (encodeFrame s.cfg.hexCase p s.cfg.nodeId c payload ++ s.cfg.term)], ?_, ?_⟩
  · split <;> rfl
  · rintro _ ⟨_, _, _, _, _, _, _, rfl⟩
    rw [sendPacket_eq, sendPacket_eq, List.append_assoc]
    rfl

/-- Whether TICK releases TE depends on the transmit registers alone, and it gives no `evt` result. -/
theorem checkRelease_transmitted (now : Nat) (s : State) :
    ∃ es, evtOf es = [] ∧ ∀ u, SameTransmit s u →
      (checkRelease now u).returning .nothing = u.transmitted (checkRelease now s) es := by
  refine ⟨if s.te && decide (s.releaseAt ≤ now) then [.teRelease] else [], ?_, ?_⟩
  · split <;> rfl
  · rintro _ ⟨_, _, _, _, _, _, _, rfl⟩
    rw [checkRelease_eq, checkRelease_eq]
    rfl

theorem SameTransmit.cfg_eq {s u : State} (h : SameTransmit s u) : u.cfg = s.cfg := by
  obtain ⟨_, _, _, _, _, _, _, rfl⟩ := h
  rfl

/-- A SEND that completes was inside its domain (44_transmit.md R175, R180, R192). -/
theorem exec_send_inv {p c : Byte} {payload : List Byte} {now : Nat} {s t : State}
    (h : exec (.send p c payload now) s = .next t) :
    payload.length ≤ payloadMax ∧ (s.cfg.teEn = true → 1 ≤ s.cfg.baud) ∧ s.cfg.timeFits now = true ∧
      t = (sendPacket p c payload now s).returning .nothing := by
  simpa [IsTransmit] using exec_next_cases h

/-- A TICK that completes had a `now` of `W_TIME` bits (45_te_timer.md R195). -/
theorem exec_tick_inv {now : Nat} {s t : State} (h : exec (.tick now) s = .next t) :
    s.cfg.timeFits now = true ∧ t = (checkRelease now s).returning .nothing := by
  simpa [IsTransmit] using exec_next_cases h

/-- A transmit operation reads and writes only the transmit registers and its outputs (20_memory.md R62). -/
theorem exec_transmitted {j : Instr} {s b : State} (hj : IsTransmit j) (h : exec j s = .next b) :
    ∃ es, evtOf es = [] ∧ ∀ u, SameTransmit s u → exec j u = .next (u.transmitted b es) := by
  obtain ⟨p, c, payload, now, rfl⟩ | ⟨now, rfl⟩ := hj
  · obtain ⟨hlen, hbaud, hnow, rfl⟩ := exec_send_inv h
    obtain ⟨es, hes, ht⟩ := sendPacket_transmitted p c payload now s
    refine ⟨es, hes, fun u hu => ?_⟩
    rw [exec_send_next hlen (hu.cfg_eq ▸ hbaud) (hu.cfg_eq ▸ hnow), ht u hu]
    rfl
  · obtain ⟨hnow, rfl⟩ := exec_tick_inv h
    obtain ⟨es, hes, ht⟩ := checkRelease_transmitted now s
    refine ⟨es, hes, fun u hu => ?_⟩
    rw [exec_tick_next (hu.cfg_eq ▸ hnow), ht u hu]
    rfl

theorem evtOf_append (h h' : List Event) : evtOf (h ++ h') = evtOf h ++ evtOf h' := List.filterMap_append

theorem txOf_append (h h' : List Event) : txOf (h ++ h') = txOf h ++ txOf h' := List.filter_append ..

theorem txOf_rx (r : RxResult) : txOf [.rx r] = [] := rfl

/-! #### The statements -/

/-- Settles O42: the line parser's stores, RX.LF's clearing, and the frames of the inbound and the outbound buffers. -/
theorem bufferFrame : Obligations.BufferFrame := by
  intro i s t h
  refine ⟨fun b hi sp a => ?_, fun hi a => ?_, fun p c payload now hi a => ⟨?_, fun sp hsp => ?_⟩,
    fun hlf hrst hdata hsend sp a => ?_⟩
  · subst hi
    obtain rfl : (storeRxByte b s).endRx .none = t := Host.Outcome.next.inj (requires_next h).2
    exact (State.readByte_congr (by cases sp <;> rfl) a).trans (readByte_storeRxByte b s sp a)
  · subst hi
    obtain rfl : completeLine s = t := Host.Outcome.next.inj h
    exact readByte_completeLine s a
  · subst hi
    obtain ⟨_, _, _, _, ⟨⟩, hread⟩ | ⟨hno, _⟩ := exec_outbound_bytes h (by simp) a
    · exact hread
    · exact absurd rfl (hno p c payload now)
  · subst hi
    exact exec_keeps_inbound_bytes h (by simp) (by simp) (by simp) hsp a
  · by_cases hsp : sp = .txPayload
    · subst hsp
      obtain ⟨p, c, payload, now, hi, _⟩ | ⟨_, hread⟩ := exec_outbound_bytes h hrst a
      · exact absurd hi (hsend p c payload now)
      · exact hread
    · exact exec_keeps_inbound_bytes h hlf hrst hdata hsp a

/-- Settles O46: each operation finds its own registers as the other left them, and its outputs are of another kind. -/
theorem pathsIndependent : Obligations.PathsIndependent := by
  intro i j s a b hi hj ha hb
  obtain ⟨r, hr⟩ := exec_received hi ha
  obtain ⟨es, hes, ht⟩ := exec_transmitted hj hb
  have hsa : a = s.received a r := Host.Outcome.next.inj (ha.symm.trans (hr s ⟨_, _, _, _, _, _, rfl⟩))
  have hsb : b = s.transmitted b es := Host.Outcome.next.inj (hb.symm.trans (ht s ⟨_, _, _, _, _, _, _, rfl⟩))
  have hcfg : a.cfg = b.cfg := (congrArg State.cfg hsa).trans (congrArg State.cfg hsb).symm
  have hha : a.hist = s.hist ++ [.rx r] := congrArg State.hist hsa
  have hhb : b.hist = s.hist ++ es := congrArg State.hist hsb
  refine ⟨a.transmitted b es, b.received a r, ht a ⟨_, _, _, _, _, _, _, hsa⟩, hr b ⟨_, _, _, _, _, _, hsb⟩,
    rfl, rfl, rfl, rfl, rfl, rfl, rfl, hcfg, ?_, ?_⟩
  · change evtOf (a.hist ++ es) = evtOf (b.hist ++ [.rx r])
    simp only [hha, hhb, evtOf_append, hes, List.append_nil]
  · change txOf (a.hist ++ es) = txOf (b.hist ++ [.rx r])
    simp only [hha, hhb, txOf_append, txOf_rx, List.append_nil]

end Sys2Proof.Machine

namespace Sys2Proof.Machine

/-! ### Encoding (30_encoding.md R70 to R86)

Which row a transaction selects and which transaction presents it, what the rows of the three selector formats do, and
what a line's characters can hide from DECODE. -/

/-! #### Rows of the selector formats -/

/-- The RX byte classes exclude each other (30_encoding.md R80). -/
theorem decodeRx_cases (b : Byte) :
    (b = 0x0A ∧ decodeRx b = .rxLf) ∨ (b = 0x0D ∧ decodeRx b = .rxCr) ∨
    (isLineBreak b = false ∧ decodeRx b = .rxData b) := by
  unfold decodeRx isLineBreak
  cases hlf : b == 0x0A with
  | true => exact .inl ⟨beq_iff_eq.1 hlf, rfl⟩
  | false =>
    cases hcr : b == 0x0D with
    | true => exact .inr (.inl ⟨beq_iff_eq.1 hcr, rfl⟩)
    | false => exact .inr (.inr ⟨rfl, rfl⟩)

/-- Every hex digit has a row (30_encoding.md R75). -/
theorem hexcharRows_lookup_of_digit :
    ∀ c : Byte, isHexDigit c = true → (hexcharRows.lookup c).isSome = true := by decide

/-- Every assigned type code has a row (30_encoding.md R78). -/
theorem ptypeRows_lookup_of_assigned :
    ∀ t : Byte, isAssignedType t = true → (ptypeRows.lookup t).isSome = true := by decide

/-- A character selects its own row, or HEX.INVALID when it is no hex digit (30_encoding.md R75, R76). -/
theorem decodeHexchar_cases (c : Byte) :
    (c, decodeHexchar c) ∈ hexcharRows ∨ (isHexDigit c = false ∧ decodeHexchar c = .hexInvalid c) := by
  unfold decodeHexchar
  cases hrow : hexcharRows.lookup c with
  | some i => exact .inl (lookup_mem _ c i hrow)
  | none =>
    have hno : isHexDigit c ≠ true := mt (hexcharRows_lookup_of_digit c) (by simp [hrow])
    exact .inr ⟨Bool.eq_false_of_not_eq_true hno, rfl⟩

/-- A type byte selects its own row, or PT.UNASSIGNED when it has none (30_encoding.md R78, R79). -/
theorem decodePtype_cases (t : Byte) :
    (t, decodePtype t) ∈ ptypeRows ∨ (isAssignedType t = false ∧ decodePtype t = .ptUnassigned t) := by
  unfold decodePtype
  cases hrow : ptypeRows.lookup t with
  | some i => exact .inl (lookup_mem _ t i hrow)
  | none =>
    have hno : isAssignedType t ≠ true := mt (ptypeRows_lookup_of_assigned t) (by simp [hrow])
    exact .inr ⟨Bool.eq_false_of_not_eq_true hno, rfl⟩

/-! #### Encoding what a port decoded -/

theorem encode_decodeRx (b : Byte) : encode (decodeRx b) = ⟨.rx, [b], 0⟩ := by
  obtain ⟨rfl, h⟩ | ⟨rfl, h⟩ | ⟨_, h⟩ := decodeRx_cases b <;> rw [h] <;> rfl

theorem hexcharRows_encode : ∀ r ∈ hexcharRows, encode r.2 = ⟨.hexchar, [r.1], 0⟩ := by decide

theorem ptypeRows_encode : ∀ r ∈ ptypeRows, encode r.2 = ⟨.ptype, [r.1], 0⟩ := by decide

theorem encode_decodeHexchar (c : Byte) : encode (decodeHexchar c) = ⟨.hexchar, [c], 0⟩ := by
  obtain hrow | ⟨_, h⟩ := decodeHexchar_cases c
  · exact hexcharRows_encode _ hrow
  · rw [h]
    rfl

theorem encode_decodePtype (t : Byte) : encode (decodePtype t) = ⟨.ptype, [t], 0⟩ := by
  obtain hrow | ⟨_, h⟩ := decodePtype_cases t
  · exact ptypeRows_encode _ hrow
  · rw [h]
    rfl

theorem decodeFramePort_ok {data : List Byte} {n : Nat} {i : Instr} (h : decodeFramePort data n = .ok i) :
    n = 0 ∧ i = .frame data := by
  unfold decodeFramePort at h
  split at h
  · cases h
  · exact (noNumber_ok h).imp_right Eq.symm

/-- A byte below 16 is its low nibble, zero-extended. -/
theorem zeroExtend_lo : ∀ b : Byte, b.toNat < 16 → b.lo.zeroExtend 8 = b := by decide

theorem decodeNibblePort_ok {n : Nat} {b : Byte} {i : Instr} (h : decodeNibblePort n b = .ok i) :
    n = 0 ∧ ∃ v : Nibble, i = .nib2hex v ∧ v.zeroExtend 8 = b := by
  unfold decodeNibblePort at h
  split at h
  · next hb =>
    obtain ⟨hn, rfl⟩ := noNumber_ok h
    exact ⟨hn, b.lo, rfl, zeroExtend_lo b hb⟩
  · cases h

theorem decodePairPort_ok {data : List Byte} {n : Nat} {i : Instr} (h : decodePairPort data n = .ok i) :
    n = 0 ∧ ∃ c0 c1, data = [c0, c1] ∧ i = .hex2byte c0 c1 := by
  unfold decodePairPort at h
  split at h
  · next c0 c1 =>
    obtain ⟨hn, rfl⟩ := noNumber_ok h
    exact ⟨hn, c0, c1, rfl, rfl⟩
  · cases h

theorem decodeParityPort_ok {data : List Byte} {n : Nat} {i : Instr} (h : decodeParityPort data n = .ok i) :
    n = 0 ∧ ∃ p node c ds payload, data = p :: node :: c :: ds :: payload ∧ i = .parity p node c ds payload := by
  unfold decodeParityPort at h
  split at h
  · next p node c ds payload =>
    split at h
    · obtain ⟨hn, rfl⟩ := noNumber_ok h
      exact ⟨hn, p, node, c, ds, payload, rfl, rfl⟩
    · cases h
  · cases h

theorem decodeIsvalidPort_ok {data : List Byte} {n : Nat} {i : Instr} (h : decodeIsvalidPort data n = .ok i) :
    n = 0 ∧ ∃ k : Packet, i = .isvalid k ∧
      data = k.ptype :: k.nodeId :: k.commandId :: k.datasize :: k.parity :: k.payload := by
  unfold decodeIsvalidPort at h
  split at h
  · split at h
    · obtain ⟨hn, rfl⟩ := noNumber_ok h
      exact ⟨hn, _, rfl, rfl⟩
    · cases h
  · cases h

theorem decodeTagcmpPort_ok {data : List Byte} {n : Nat} {i : Instr} (h : decodeTagcmpPort data n = .ok i) :
    i = .tagcmp data n := by
  unfold decodeTagcmpPort at h
  split at h
  · split at h
    · cases h
      rfl
    · cases h
  · cases h

theorem decodeEncodePort_ok {data : List Byte} {n : Nat} {i : Instr} (h : decodeEncodePort data n = .ok i) :
    n = 0 ∧ ∃ p node c payload, data = p :: node :: c :: payload ∧ i = .encode p node c payload := by
  unfold decodeEncodePort at h
  split at h
  · next p node c payload =>
    obtain ⟨hn, rfl⟩ := noNumber_ok h
    exact ⟨hn, p, node, c, payload, rfl, rfl⟩
  · cases h

theorem decodeCmdPort_ok {data : List Byte} {now : Nat} {i : Instr} (h : decodeCmdPort data now = .ok i) :
    ∃ p c payload, data = p :: c :: payload ∧ i = .send p c payload now := by
  unfold decodeCmdPort at h
  split at h
  · next p c payload =>
    cases h
    exact ⟨p, c, payload, rfl, rfl⟩
  · cases h

/-- A port that carries one byte and no number gives back both. -/
theorem oneByte_noNumber_ok {data : List Byte} {n : Nat} {f : Byte → Instr} {i : Instr}
    (h : oneByte data (fun b => noNumber n (f b)) = .ok i) : ∃ b, data = [b] ∧ n = 0 ∧ i = f b := by
  obtain ⟨b, hdata, h⟩ := oneByte_ok h
  obtain ⟨hn, hi⟩ := noNumber_ok h
  exact ⟨b, hdata, hn, hi.symm⟩

/-- A transaction that decodes is the one its instruction encodes to, by the port it arrives on. -/
theorem encode_of_decode_ok {t : Transaction} {i : Instr} (h : decode t = .ok i) : encode i = t := by
  obtain ⟨port, data, n⟩ := t
  cases port with
  | rx =>
    obtain ⟨b, rfl, rfl, rfl⟩ := oneByte_noNumber_ok h
    exact encode_decodeRx b
  | cmd =>
    obtain ⟨p, c, payload, rfl, rfl⟩ := decodeCmdPort_ok h
    rfl
  | tick =>
    obtain ⟨rfl, ⟨⟩⟩ := noBytes_ok h
    rfl
  | rst =>
    obtain ⟨rfl, h⟩ := noBytes_ok h
    obtain ⟨rfl, rfl⟩ := noNumber_ok h
    rfl
  | hexchar =>
    obtain ⟨c, rfl, rfl, rfl⟩ := oneByte_noNumber_ok h
    exact encode_decodeHexchar c
  | ptype =>
    obtain ⟨c, rfl, rfl, rfl⟩ := oneByte_noNumber_ok h
    exact encode_decodePtype c
  | frame =>
    obtain ⟨rfl, rfl⟩ := decodeFramePort_ok h
    rfl
  | nib2hex =>
    obtain ⟨b, rfl, h⟩ := oneByte_ok h
    obtain ⟨rfl, v, rfl, rfl⟩ := decodeNibblePort_ok h
    rfl
  | hex2nib =>
    obtain ⟨c, rfl, rfl, rfl⟩ := oneByte_noNumber_ok h
    rfl
  | byte2hex =>
    obtain ⟨b, rfl, rfl, rfl⟩ := oneByte_noNumber_ok h
    rfl
  | hex2byte =>
    obtain ⟨rfl, c0, c1, rfl, rfl⟩ := decodePairPort_ok h
    rfl
  | parity =>
    obtain ⟨rfl, p, node, c, ds, payload, rfl, rfl⟩ := decodeParityPort_ok h
    rfl
  | isvalid =>
    obtain ⟨rfl, k, rfl, rfl⟩ := decodeIsvalidPort_ok h
    rfl
  | tagcmp =>
    obtain rfl := decodeTagcmpPort_ok h
    rfl
  | decode =>
    obtain ⟨rfl, rfl⟩ := noNumber_ok h
    rfl
  | encode =>
    obtain ⟨rfl, p, node, c, payload, rfl, rfl⟩ := decodeEncodePort_ok h
    rfl
  | holdcalc =>
    obtain ⟨ds, rfl, ⟨⟩⟩ := oneByte_ok h
    rfl

/-- A well-formed instruction is what its transaction decodes to: by its domain where it has one, by evaluation where it
has none. -/
theorem decode_encode_of_wellFormed (i : Instr) : Laws.RoundTrip.Statement i := by
  cases i with
  | rxData b => exact Laws.RoundTrip.rxData b
  | hexInvalid c => exact Laws.RoundTrip.hexInvalid c
  | ptUnassigned t => exact Laws.RoundTrip.ptUnassigned t
  | frame line => exact Laws.RoundTrip.frame line
  | nib2hex v => exact Laws.RoundTrip.nib2hex v
  | parity p n c ds payload => exact Laws.RoundTrip.parity p n c ds payload
  | isvalid k => exact Laws.RoundTrip.isvalid k
  | tagcmp tag tagLen => exact Laws.RoundTrip.tagcmp tag tagLen
  | _ => exact fun _ _ => rfl

/-! #### What the rows do -/

@[simp] theorem requires_false (why : Refusal) (o : Host.Outcome State Fault Refusal) :
    requires false why o = .refused why := rfl

/-- A character that is no hex digit reads as `HEX_DEC_ERROR` (30_encoding.md R76). -/
theorem hexToNib_of_not_digit {c : Byte} (h : isHexDigit c = false) : hexToNib c = hexDecError := by
  simp only [isHexDigit, Bool.or_eq_false_iff, Bool.and_eq_false_iff, decide_eq_false_iff_not] at h
  obtain ⟨⟨hdigit, hupper⟩, hlower⟩ := h
  unfold hexToNib
  rw [if_neg (not_and_or.2 hdigit), if_neg (not_and_or.2 hupper), if_neg (not_and_or.2 hlower)]

/-- A small hex letter reads like its capital (40_codec.md R103). -/
theorem hexToNib_capital :
    ∀ c : Byte, 0x61 ≤ c.toNat → c.toNat ≤ 0x66 → hexToNib (c - 0x20) = hexToNib c := by decide

theorem exec_hexInvalid_of_not_digit {c : Byte} (h : isHexDigit c = false) (s : State) :
    exec (.hexInvalid c) s = readHexChar c s := by
  simp only [exec, execHexInvalid, h, Bool.not_false, requires_true]

theorem exec_hexInvalid_of_digit {c : Byte} (h : isHexDigit c = true) (s : State) :
    exec (.hexInvalid c) s = .refused .operandOutsideDomain := by
  simp only [exec, execHexInvalid, h, Bool.not_true, requires_false]

theorem exec_ptUnassigned_of_not_assigned {t : Byte} (h : isAssignedType t = false) (s : State) :
    exec (.ptUnassigned t) s = acceptType t s := by
  simp only [exec, execPtUnassigned, h, Bool.not_false, requires_true]

theorem exec_ptUnassigned_of_assigned {t : Byte} (h : isAssignedType t = true) (s : State) :
    exec (.ptUnassigned t) s = .refused .operandOutsideDomain := by
  simp only [exec, execPtUnassigned, h, Bool.not_true, requires_false]

/-- Each `hexchar` row reads the character it is listed under. -/
theorem exec_hexcharRows (s : State) : ∀ r ∈ hexcharRows, exec r.2 s = readHexChar r.1 s := by
  simp only [hexcharRows, List.cons_append, List.nil_append, List.forall_mem_cons, List.not_mem_nil, false_imp_iff,
    implies_true, and_true]
  and_intros <;> rfl

/-- Each `ptype` row accepts the byte it is listed under. -/
theorem exec_ptypeRows (s : State) : ∀ r ∈ ptypeRows, exec r.2 s = acceptType r.1 s := by
  simp only [ptypeRows, List.forall_mem_cons, List.not_mem_nil, false_imp_iff,
    implies_true, and_true]
  and_intros <;> rfl

/-- Whatever character stands in a hex2 position is read (30_encoding.md R75, R76). -/
theorem exec_decodeHexchar (c : Byte) (s : State) : exec (decodeHexchar c) s = readHexChar c s := by
  obtain hrow | ⟨hno, h⟩ := decodeHexchar_cases c
  · exact exec_hexcharRows s _ hrow
  · rw [h, exec_hexInvalid_of_not_digit hno]

/-- Whatever byte stands in a type field is accepted (30_encoding.md R78, R79). -/
theorem exec_decodePtype (t : Byte) (s : State) : exec (decodePtype t) s = acceptType t s := by
  obtain hrow | ⟨hno, h⟩ := decodePtype_cases t
  · exact exec_ptypeRows s _ hrow
  · rw [h, exec_ptUnassigned_of_not_assigned hno]

/-- Every byte's parser operation is in its domain (42_line_parser.md R132). -/
theorem exec_decodeRx_completes (b : Byte) (s : State) : ∃ t, exec (decodeRx b) s = .next t := by
  obtain ⟨_, h⟩ | ⟨_, h⟩ | ⟨hb, h⟩ := decodeRx_cases b <;> rw [h]
  · exact ⟨_, rfl⟩
  · exact ⟨_, rfl⟩
  · exact ⟨_, exec_rxData_next s hb⟩

/-! #### Whole lines -/

/-- FRAME of a line's characters returns the line's result (30_encoding.md R86). -/
theorem exec_frame_next {line : List Byte} (s : State) (h : ∀ b ∈ line, b ≠ 0x0A ∧ b ≠ 0x0D) :
    exec (.frame line) s = .next (s.returning (.rx (lineResult s.cfg.bodyCap line))) := by
  simp only [exec, execFrame, any_lineBreak line h, Bool.not_false, requires_true, answer]

/-- The tag comparison of a whole line (30_encoding.md R70). -/
theorem tagMatches_take_iff (line : List Byte) :
    tagMatches (line.take 5) (line.take 5).length = true ↔ line.take 5 = tagBytes := by
  rw [tagMatches_iff _ _ (.inr rfl), and_iff_right_iff_imp]
  intro htag
  rw [htag]
  rfl

theorem lineResult_of_ne_tag {cap : Nat} {line : List Byte} (h : line.take 5 ≠ tagBytes) :
    lineResult cap line = .lineIgnored :=
  if_neg (mt (tagMatches_take_iff line).1 h)

theorem lineResult_of_ok {cap : Nat} {line : List Byte} {pkt : Packet} (h : line.take 5 = tagBytes)
    (hd : decodeLine ((line.drop 5).take cap) = .ok pkt) : lineResult cap line = .packetAccepted pkt := by
  simp only [lineResult, (tagMatches_take_iff line).2 h, if_true, hd]

theorem lineResult_of_fail {cap : Nat} {line : List Byte} {e : LineError} (h : line.take 5 = tagBytes)
    (hd : decodeLine ((line.drop 5).take cap) = .fail e) : lineResult cap line = .decodeError e := by
  simp only [lineResult, (tagMatches_take_iff line).2 h, if_true, hd]

/-! #### What DECODE reads of a body -/

/-- DECODE reads a body's length, its first character, and the packet at the fixed offsets (43_decode.md R150). -/
theorem decodeLine_congr {a b : List Byte} (hlen : a.length = b.length) (hfirst : byteAt a 0 = byteAt b 0)
    (hds : hexAt a 10 = hexAt b 10) (hpkt : packetAt a (hexAt b 10) = packetAt b (hexAt b 10)) :
    decodeLine a = decodeLine b := by
  simp only [decodeLine, hlen, hfirst, hds, hpkt]

/-- Every field of a packet is read by HEX2BYTE (43_decode.md R154). -/
theorem packetAt_congr {a b : List Byte} (h : ∀ off, hexAt a off = hexAt b off) (ds : Byte) :
    packetAt a ds = packetAt b ds := by
  simp only [packetAt, payloadAt, h]

theorem byteAt_set {body : List Byte} {k : Nat} (hk : k < body.length) (c : Byte) (off : Nat) :
    byteAt (body.set k c) off = if k = off then c else byteAt body off := by
  unfold byteAt
  rw [List.getElem?_set]
  split <;> rfl

/-- A character written over one of the same nibble leaves every HEX2BYTE of the body as it was (40_codec.md R107). -/
theorem hexAt_set {body : List Byte} {k : Nat} (hk : k < body.length) {c : Byte}
    (hc : hexToNib c = hexToNib body[k]) (off : Nat) : hexAt (body.set k c) off = hexAt body off := by
  have hnib : ∀ j, hexToNib (byteAt (body.set k c) j) = hexToNib (byteAt body j) := by
    intro j
    rw [byteAt_set hk]
    split
    · next hj =>
      subst hj
      simpa [byteAt, hk] using hc
    · rfl
  simp only [hexAt, hexToByte, hnib]

/-- A character written over one of the same nibble, not the first, changes no decode result (43_decode.md R159). -/
theorem decodeLine_set {body : List Byte} {k : Nat} (hpos : 1 ≤ k) (hk : k < body.length) {c : Byte}
    (hc : hexToNib c = hexToNib body[k]) : decodeLine (body.set k c) = decodeLine body := by
  have hhex := hexAt_set hk hc
  refine decodeLine_congr List.length_set ?_ (hhex 10) (packetAt_congr hhex _)
  rw [byteAt_set hk, if_neg (Nat.ne_of_gt hpos)]

theorem exec_decode_congr {a b : List Byte} (h : decodeLine a = decodeLine b) (s : State) :
    exec (.decode a) s = exec (.decode b) s := by
  simp only [exec, execDecode, h]

/-! #### The statements -/

/-- Settles O4: by the instruction's constructor one way, by the transaction's port the other. -/
theorem decodeEncodeAgree : Obligations.DecodeEncodeAgree :=
  ⟨fun c i => decode_encode_of_wellFormed i c, fun _ _ => encode_of_decode_ok⟩

/-- Settles O7: the row a character selects reads that character, and so does HEX2NIB. -/
theorem hexPositionIsHex2nib : Obligations.HexPositionIsHex2nib :=
  fun c => ⟨decodeHexchar c, rfl, exec_decodeHexchar c⟩

/-- Settles O22: the result is the line's, by tag comparison and DECODE. -/
theorem frameResult : Obligations.FrameResult :=
  fun s _ hline => ⟨_, exec_frame_next s hline, lineResult_of_ne_tag,
    fun htag => ⟨fun _ => lineResult_of_ok htag, fun _ => lineResult_of_fail htag⟩⟩

/-- Settles O26: either replacement has the nibble of the character it replaces. -/
theorem hexFallbackUndetected : Obligations.HexFallbackUndetected := by
  intro s body k hpos hk
  refine ⟨fun hno => ?_, fun hlo hhi => ?_⟩
  · exact exec_decode_congr (decodeLine_set (c := 0x30) hpos hk (hexToNib_of_not_digit hno).symm) s
  · exact exec_decode_congr (decodeLine_set hpos hk (hexToNib_capital _ hlo hhi)) s

/-- Settles O2: each word evaluates. -/
theorem writtenWordsDecode : Obligations.WrittenWordsDecode :=
  ⟨rfl, rfl, rfl, rfl, rfl, rfl, rfl, rfl, rfl, rfl, rfl, rfl, rfl⟩

/-- Settles O3: the byte's transaction decodes to its class, whose operation completes. -/
theorem rxByteSelectsOperation : Obligations.RxByteSelectsOperation := by
  intro s b rest hp
  have hstep : step s = exec (decodeRx b) { s with pending := rest } := step_of_decode_ok hp rfl
  refine ⟨?_, ?_⟩
  · rw [hstep]
    exact exec_decodeRx_completes b _
  · simpa only [decodeRx, beq_iff_eq] using hstep

/-- Settles O6: each row reads its own character, and HEX.INVALID one that reads as 0. -/
theorem hexCharacterRows : Obligations.HexCharacterRows := by
  intro s
  refine ⟨rfl, rfl, rfl, rfl, rfl, rfl, rfl, rfl, rfl, rfl, rfl, rfl, rfl, rfl, rfl, rfl, rfl, rfl, rfl, rfl, rfl,
    rfl, fun c hno => ?_, fun c hdigit => exec_hexInvalid_of_digit hdigit s⟩
  rw [exec_hexInvalid_of_not_digit hno, readHexChar, hexToNib_of_not_digit hno]
  rfl

/-- Settles O16: each row accepts its own byte, and every byte selects a row that accepts it. -/
theorem typeCodesOpaque : Obligations.TypeCodesOpaque :=
  fun s => ⟨rfl, rfl, rfl, rfl, rfl, rfl, rfl, fun _ hno => exec_ptUnassigned_of_not_assigned hno s,
    fun _ hassigned => exec_ptUnassigned_of_assigned hassigned s,
    fun t => ⟨decodePtype t, rfl, exec_decodePtype t s⟩⟩

end Sys2Proof.Machine

namespace Sys2Proof.Machine

/-! ### Codec (40_codec.md R100 to R106)

What each of the four operations returns, the characters NIB2HEX gives and the nibbles HEX2NIB reads as numbers, and
which characters NIB2HEX gives at all. -/

/-! #### What the operations return -/

theorem exec_nib2hex_next (v : Nibble) (s : State) :
    exec (.nib2hex v) s = .next (s.returning (.byte (nibToHex s.cfg.hexCase v))) := rfl

theorem exec_hex2nib_next (c : Byte) (s : State) :
    exec (.hex2nib c) s = .next (s.returning (.nibble (hexToNib c))) := rfl

theorem exec_byte2hex_next (b : Byte) (s : State) :
    exec (.byte2hex b) s =
      .next (s.returning (.hex2 (nibToHex s.cfg.hexCase b.hi) (nibToHex s.cfg.hexCase b.lo))) := rfl

theorem exec_hex2byte_next (c0 c1 : Byte) (s : State) :
    exec (.hex2byte c0 c1) s = .next (s.returning (.byte (hexToByte c0 c1))) := rfl

/-! #### Characters and nibbles as numbers -/

/-- A digit's value fits in a nibble, so taking it as one loses nothing. -/
theorem toNat_ofNat_sub {n base : Nat} (h : n < base + 16) : (BitVec.ofNat 4 (n - base)).toNat = n - base := by
  rw [BitVec.toNat_ofNat, Nat.mod_eq_of_lt (by omega)]

/-- HEX2NIB by the four ranges of 40_codec.md R102. -/
theorem hexToNib_toNat (c : Byte) :
    (hexToNib c).toNat = if 0x30 ≤ c.toNat ∧ c.toNat ≤ 0x39 then c.toNat - 0x30
      else if 0x41 ≤ c.toNat ∧ c.toNat ≤ 0x46 then c.toNat - 0x37
      else if 0x61 ≤ c.toNat ∧ c.toNat ≤ 0x66 then c.toNat - 0x57 else 0 := by
  unfold hexToNib
  split_ifs
  · exact toNat_ofNat_sub (by omega)
  · exact toNat_ofNat_sub (by omega)
  · exact toNat_ofNat_sub (by omega)
  · rfl

/-- NIB2HEX by the two ranges and the letter case of 40_codec.md R100: no addition wraps. -/
theorem nibToHex_toNat (hc : HexCase) (v : Nibble) :
    (nibToHex hc v).toNat = if v.toNat ≤ 9 then 0x30 + v.toNat
      else if hc = .upper then 0x37 + v.toNat else 0x57 + v.toNat := by
  have hsum : ∀ base : Byte, base.toNat ≤ 0x57 → (base + v.zeroExtend 8).toNat = base.toNat + v.toNat := by
    intro base hbase
    have hv : (v.zeroExtend 8).toNat = v.toNat := BitVec.toNat_setWidth_of_le (by decide)
    rw [BitVec.toNat_add_of_lt (by omega), hv]
  unfold nibToHex
  split
  · exact hsum 0x30 (by decide)
  · cases hc with
    | upper => exact hsum 0x37 (by decide)
    | lower => exact hsum 0x57 (by decide)

/-- HEX2BYTE is 16 times the first nibble plus the second (40_codec.md R106). -/
theorem hexToByte_toNat (c0 c1 : Byte) :
    (hexToByte c0 c1).toNat = 16 * (hexToNib c0).toNat + (hexToNib c1).toNat :=
  ofNibbles_toNat _ _

/-! #### The characters NIB2HEX gives -/

/-- A capital hex letter reads like its small letter: `hexToNib_capital` from the other side (40_codec.md R103). -/
theorem hexToNib_small {c : Byte} (hlo : 0x41 ≤ c.toNat) (hhi : c.toNat ≤ 0x46) :
    hexToNib (c + 0x20) = hexToNib c := by
  have hsum : (c + 0x20).toNat = c.toNat + 0x20 := by bv_omega
  have h := hexToNib_capital (c + 0x20) (by omega) (by omega)
  rwa [BitVec.add_sub_cancel, eq_comm] at h

/-- NIB2HEX gives a digit or a letter of its case (40_codec.md R100). -/
theorem nibToHex_range (hc : HexCase) (v : Nibble) :
    (0x30 ≤ (nibToHex hc v).toNat ∧ (nibToHex hc v).toNat ≤ 0x39) ∨
      (hc = .upper ∧ 0x41 ≤ (nibToHex hc v).toNat ∧ (nibToHex hc v).toNat ≤ 0x46) ∨
      (hc = .lower ∧ 0x61 ≤ (nibToHex hc v).toNat ∧ (nibToHex hc v).toNat ≤ 0x66) := by
  have hv := v.isLt
  rw [nibToHex_toNat]
  split
  · exact .inl (by omega)
  · cases hc with
    | upper => exact .inr (.inl ⟨rfl, by rw [if_pos rfl]; omega⟩)
    | lower => exact .inr (.inr ⟨rfl, by rw [if_neg (by decide)]; omega⟩)

/-- NIB2HEX gives back the digits and the letters of its case: in each of these ranges HEX2NIB takes off what NIB2HEX
adds (40_codec.md R103). -/
theorem nibToHex_hexToNib_of_range {hc : HexCase} {c : Byte}
    (h : (0x30 ≤ c.toNat ∧ c.toNat ≤ 0x39) ∨ (hc = .upper ∧ 0x41 ≤ c.toNat ∧ c.toNat ≤ 0x46) ∨
      (hc = .lower ∧ 0x61 ≤ c.toNat ∧ c.toNat ≤ 0x66)) :
    nibToHex hc (hexToNib c) = c := by
  apply BitVec.eq_of_toNat_eq
  have hv := hexToNib_toNat c
  obtain hdigit | ⟨rfl, hcapital⟩ | ⟨rfl, hsmall⟩ := h
  · rw [if_pos hdigit] at hv
    rw [nibToHex_toNat, if_pos (by omega)]
    omega
  · rw [if_neg (by omega), if_pos hcapital] at hv
    rw [nibToHex_toNat, if_neg (by omega), if_pos rfl]
    omega
  · rw [if_neg (by omega), if_neg (by omega), if_pos hsmall] at hv
    rw [nibToHex_toNat, if_neg (by omega), if_neg (by decide)]
    omega

/-! #### The statements -/

/-- Settles O5: HEX2NIB returns the nibble of its range. -/
theorem hex2nibResult : Obligations.Hex2nibResult :=
  fun s c => ⟨hexToNib c, exec_hex2nib_next c s, hexToNib_toNat c⟩

/-- Settles O8: NIB2HEX returns the digit of its range, which HEX2NIB inverts. -/
theorem nibbleRoundTrip : Obligations.NibbleRoundTrip := by
  intro s v
  refine ⟨nibToHex s.cfg.hexCase v, exec_nib2hex_next v s, nibToHex_toNat _ v, ?_⟩
  rw [exec_hex2nib_next, hexToNib_nibToHex]
  rfl

/-- Settles O9: BYTE2HEX returns NIB2HEX of the two nibbles, which HEX2BYTE puts together again. -/
theorem byteRoundTrip : Obligations.ByteRoundTrip := by
  intro s b
  refine ⟨nibToHex s.cfg.hexCase b.hi, nibToHex s.cfg.hexCase b.lo, exec_byte2hex_next b s,
    exec_nib2hex_next b.hi s, exec_nib2hex_next b.lo s, ?_⟩
  rw [exec_hex2byte_next, hexToByte_hexPair]
  rfl

/-- Settles O10: HEX2BYTE joins the nibbles that HEX2NIB returns. -/
theorem hex2byteResult : Obligations.Hex2byteResult :=
  fun s c0 c1 => ⟨hexToNib c0, hexToNib c1, hexToByte c0 c1, exec_hex2nib_next c0 s, exec_hex2nib_next c1 s,
    exec_hex2byte_next c0 c1 s, hexToByte_toNat c0 c1⟩

/-- Settles O11: a character that NIB2HEX gives back is one NIB2HEX gives, so it lies in NIB2HEX's range; in that range
HEX2NIB loses nothing. -/
theorem hex2nibNotInjective : Obligations.Hex2nibNotInjective := by
  refine ⟨fun _ => hexToNib_small, fun _ => hexToNib_of_not_digit,
    fun hc c => ⟨fun h => ?_, nibToHex_hexToNib_of_range⟩⟩
  have hrange := nibToHex_range hc (hexToNib c)
  rwa [h] at hrange

end Sys2Proof.Machine

namespace Sys2Proof.Machine

/-! ### The parity unit (41_parity.md)

ISVALID asks whether the exclusive-or of all of a packet's bytes, its syndrome, is 0. A change of a byte by `d` changes the
syndrome by `d`, so that one change shows and two equal ones cancel. -/

/-! #### The exclusive-or of a list of bytes -/

/-- The order of the bytes does not matter (41_parity.md R121). -/
theorem xorAll_perm {l m : List Byte} (h : l.Perm m) : xorAll l = xorAll m := by
  induction h with
  | nil => rfl
  | cons b _ ih => simp only [xorAll, ih]
  | swap a b l => simp only [xorAll]; ac_rfl
  | trans _ _ ih₁ ih₂ => exact ih₁.trans ih₂

/-- A difference in one byte is a difference in the whole. -/
theorem xorAll_set_xor (l : List Byte) (j : Nat) (hj : j < l.length) (d : Byte) :
    xorAll (l.set j (l[j] ^^^ d)) = xorAll l ^^^ d := by
  induction l generalizing j with
  | nil => cases hj
  | cons b l ih =>
    cases j with
    | zero => simp only [List.set_cons_zero, List.getElem_cons_zero, xorAll]; ac_rfl
    | succ j =>
      simp only [List.set_cons_succ, List.getElem_cons_succ, xorAll, ih j (Nat.lt_of_succ_lt_succ hj), BitVec.xor_assoc]

/-! #### PARITY -/

/-- PARITY of a payload of `datasize` bytes (41_parity.md R120). -/
theorem exec_parity_next {p n c ds : Byte} {payload : List Byte} (hlen : payload.length = ds.toNat) (s : State) :
    exec (.parity p n c ds payload) s = .next (s.returning (.byte (xorAll (p :: n :: c :: ds :: payload)))) := by
  simp only [exec, execParity, hlen, beq_self_eq_true, requires_true, answer, parityOf_eq_xorAll]

theorem exec_parity_refused {p n c ds : Byte} {payload : List Byte} (hlen : payload.length ≠ ds.toNat) (s : State) :
    exec (.parity p n c ds payload) s = .refused .operandOutsideDomain := by
  simp only [exec, execParity, beq_eq_false_iff_ne.2 hlen, requires_false]

/-! #### ISVALID -/

/-- The exclusive-or of all bytes of a packet, its parity included. -/
def packetSyndrome (k : Packet) : Byte :=
  xorAll (k.parity :: k.ptype :: k.nodeId :: k.commandId :: k.datasize :: k.payload)

theorem packetValid_iff_parity {k : Packet} : packetValid k = true ↔
    k.parity = xorAll (k.ptype :: k.nodeId :: k.commandId :: k.datasize :: k.payload) := by
  rw [packetValid, beq_iff_eq, packetParity, parityOf_eq_xorAll]

theorem packetValid_iff_syndrome {k : Packet} : packetValid k = true ↔ packetSyndrome k = 0 := by
  rw [packetValid_iff_parity]
  exact BitVec.xor_eq_zero_iff.symm

/-- ISVALID of a packet whose payload has `datasize` bytes (41_parity.md R122). -/
theorem exec_isvalid_next {k : Packet} (hlen : k.payload.length = k.datasize.toNat) (s : State) :
    exec (.isvalid k) s = .next (s.returning (.flag (packetValid k))) := by
  simp only [exec, execIsvalid, Packet.sized, hlen, beq_self_eq_true, requires_true, answer]

/-- What ISVALID finds valid has `datasize` payload bytes and the syndrome 0. -/
theorem exec_isvalid_true {k : Packet} {s : State}
    (h : exec (.isvalid k) s = .next { s with returned := .flag true }) :
    k.payload.length = k.datasize.toNat ∧ packetSyndrome k = 0 := by
  obtain ⟨hsized, hnext⟩ := requires_next h
  have hret : Returned.flag true = .flag (packetValid k) := congrArg State.returned (answer_next hnext)
  exact ⟨beq_iff_eq.1 hsized, packetValid_iff_syndrome.1 (Returned.flag.inj hret).symm⟩

/-- ISVALID of a packet that differs from a valid one by `d` in its syndrome: valid exactly if `d` is 0. -/
theorem exec_isvalid_changed {s : State} {k k' : Packet} {d : Byte}
    (h : exec (.isvalid k) s = .next { s with returned := .flag true })
    (hds : k'.datasize = k.datasize) (hlen : k'.payload.length = k.payload.length)
    (hsyn : packetSyndrome k' = packetSyndrome k ^^^ d) :
    exec (.isvalid k') s = .next { s with returned := .flag (d == 0) } := by
  obtain ⟨hsized, hzero⟩ := exec_isvalid_true h
  have hvalid : packetValid k' = (d == 0) := by
    have hd : packetSyndrome k' = d := by rw [hsyn, hzero]; exact BitVec.zero_xor
    rw [Bool.eq_iff_iff, packetValid_iff_syndrome, hd, beq_iff_eq]
  rw [exec_isvalid_next (by rw [hlen, hds, hsized]), hvalid]
  rfl

/-- A change that leaves the syndrome as it is goes undetected. -/
theorem exec_isvalid_same_syndrome {s : State} {k k' : Packet}
    (h : exec (.isvalid k) s = .next { s with returned := .flag true })
    (hds : k'.datasize = k.datasize) (hlen : k'.payload.length = k.payload.length)
    (hsyn : packetSyndrome k' = packetSyndrome k) :
    exec (.isvalid k') s = .next { s with returned := .flag true } :=
  exec_isvalid_changed (d := 0) h hds hlen (hsyn.trans BitVec.xor_zero.symm)

/-! #### The syndrome of a changed packet -/

section

variable (k : Packet) (d : Byte)

theorem packetSyndrome_ptype_xor : packetSyndrome { k with ptype := k.ptype ^^^ d } = packetSyndrome k ^^^ d := by
  simp only [packetSyndrome, xorAll]; ac_rfl

theorem packetSyndrome_nodeId_xor : packetSyndrome { k with nodeId := k.nodeId ^^^ d } = packetSyndrome k ^^^ d := by
  simp only [packetSyndrome, xorAll]; ac_rfl

theorem packetSyndrome_commandId_xor :
    packetSyndrome { k with commandId := k.commandId ^^^ d } = packetSyndrome k ^^^ d := by
  simp only [packetSyndrome, xorAll]; ac_rfl

theorem packetSyndrome_parity_xor : packetSyndrome { k with parity := k.parity ^^^ d } = packetSyndrome k ^^^ d := by
  simp only [packetSyndrome, xorAll]; ac_rfl

theorem packetSyndrome_payload_xor (j : Nat) (hj : j < k.payload.length) :
    packetSyndrome { k with payload := k.payload.set j (k.payload[j] ^^^ d) } = packetSyndrome k ^^^ d := by
  simp only [packetSyndrome, xorAll, xorAll_set_xor, BitVec.xor_assoc]

/-- The same difference twice cancels. -/
theorem xor_xor_self (a : Byte) : a ^^^ d ^^^ d = a := by
  rw [BitVec.xor_assoc, BitVec.xor_self, BitVec.xor_zero]

theorem packetSyndrome_two_ids_xor :
    packetSyndrome { k with nodeId := k.nodeId ^^^ d, commandId := k.commandId ^^^ d } = packetSyndrome k := by
  have hsecond := packetSyndrome_commandId_xor { k with nodeId := k.nodeId ^^^ d } d
  rw [hsecond, packetSyndrome_nodeId_xor, xor_xor_self]

/-- The second change finds its byte as it was, since it is another byte. -/
theorem packetSyndrome_two_payload_xor (i j : Nat) (hi : i < k.payload.length) (hj : j < k.payload.length)
    (hij : i ≠ j) :
    packetSyndrome { k with payload := (k.payload.set i (k.payload[i] ^^^ d)).set j (k.payload[j] ^^^ d) } =
      packetSyndrome k := by
  have hsecond := packetSyndrome_payload_xor { k with payload := k.payload.set i (k.payload[i] ^^^ d) } d j
    (by simpa using hj)
  simp only [List.getElem_set_ne hij] at hsecond
  rw [hsecond, packetSyndrome_payload_xor k d i hi, xor_xor_self]

end

/-! #### The statements -/

/-- Settles O12: the fold is an exclusive-or of all the bytes, and a permuted payload has the same length. -/
theorem parityIsXorOfFields : Obligations.ParityIsXorOfFields := by
  intro s p n c ds payload
  refine ⟨fun hlen => ⟨exec_parity_next hlen s, fun other hperm => ?_⟩, fun hlen => exec_parity_refused hlen s⟩
  have hsame : xorAll (p :: n :: c :: ds :: other) = xorAll (p :: n :: c :: ds :: payload) :=
    xorAll_perm ((((hperm.cons ds).cons c).cons n).cons p)
  rw [exec_parity_next (hperm.length_eq.trans hlen), exec_parity_next hlen, hsame]

/-- Settles O13: the flag is the comparison with PARITY, which the syndrome decides as well. -/
theorem isvalidResult : Obligations.IsvalidResult :=
  fun s k hlen => ⟨packetValid k, exec_isvalid_next hlen s, packetValid_iff_parity, packetValid_iff_syndrome⟩

/-- Settles O14: each change leaves the syndrome at the difference, which is not 0. -/
theorem singleFieldChangeDetected : Obligations.SingleFieldChangeDetected := by
  intro s k d h hd
  rw [← beq_eq_false_iff_ne.2 hd]
  exact ⟨exec_isvalid_changed h rfl rfl (packetSyndrome_ptype_xor k d),
    exec_isvalid_changed h rfl rfl (packetSyndrome_nodeId_xor k d),
    exec_isvalid_changed h rfl rfl (packetSyndrome_commandId_xor k d),
    exec_isvalid_changed h rfl rfl (packetSyndrome_parity_xor k d),
    fun j hj => exec_isvalid_changed h rfl List.length_set (packetSyndrome_payload_xor k d j hj)⟩

/-- Settles O15: two equal changes leave the syndrome at 0. -/
theorem equalChangesUndetected : Obligations.EqualChangesUndetected := by
  intro s k d h
  refine ⟨exec_isvalid_same_syndrome h rfl rfl (packetSyndrome_two_ids_xor k d), fun i j hi hj hij => ?_⟩
  exact exec_isvalid_same_syndrome h rfl (List.length_set.trans List.length_set)
    (packetSyndrome_two_payload_xor k d i j hi hj hij)

end Sys2Proof.Machine

namespace Sys2Proof.Machine

/-! ### The line parser (42_line_parser.md)

What RX.DATA and RX.LF leave, in terms of the line's characters fed so far, and what FRAME accepts when the body buffer
ends with the frame. -/

/-! #### RX.DATA -/

theorem isLineBreak_eq_false_iff {b : Byte} : isLineBreak b = false ↔ b ≠ 0x0A ∧ b ≠ 0x0D := by
  simp only [isLineBreak, Bool.or_eq_false_iff, beq_eq_false_iff_ne]

/-! #### RX.LF -/

theorem completeLine_of_ne_tag {s : State} (h : s.tag ≠ tagBytes) :
    completeLine s = s.clearLine.endRx .lineIgnored :=
  if_neg fun ht => h ((tagMatches_iff _ _ (.inr rfl)).1 ht).2

/-- The tag buffer holds `[MSP]` and nothing is missing (42_line_parser.md R138). -/
theorem tagMatches_of_tag {s : State} (h : s.tag = tagBytes) : tagMatches s.tag s.tagLen = true := by
  rw [State.tagLen_eq, h]
  rfl

theorem completeLine_of_ok {s : State} {pkt : Packet} (h : s.tag = tagBytes) (hd : decodeLine s.body = .ok pkt) :
    completeLine s = (s.acceptPacket pkt).clearLine.endRx (.packetAccepted pkt) := by
  simp only [completeLine, tagMatches_of_tag h, if_true, State.bodyLen_eq, memRead_all, hd]

theorem completeLine_of_fail {s : State} {e : LineError} (h : s.tag = tagBytes) (hd : decodeLine s.body = .fail e) :
    completeLine s = s.reportFailure e := by
  simp only [completeLine, tagMatches_of_tag h, if_true, State.bodyLen_eq, memRead_all, hd]

/-! #### A line by its characters -/

/-- The characters of the line that these bytes on `rx` make: the CRs are transparent (42_line_parser.md R135). -/
def lineChars (bytes : List Byte) : List Byte := bytes.filter (· != 0x0D)

/-- `trunc_cnt` once the characters `cs` are fed from a line boundary (42_line_parser.md R134, R141). -/
def State.countAfter (s : State) (cs : List Byte) : Nat :=
  min (s.truncCnt + (cs.length - 5 - s.cfg.bodyCap)) (2 ^ s.cfg.wCnt - 1)

/-- `rx_pkt` after this result, where it was `old` (42_line_parser.md R136). -/
def RxResult.storedPacket (old : Option Packet) : RxResult → Option Packet
  | .packetAccepted pkt => some pkt
  | _ => old

/-- `s` with the characters `cs` of an unfinished line in its buffers, the surplus counted (42_line_parser.md R141). -/
def State.lineHeld (s : State) (cs : List Byte) : State :=
  { s with tag := cs.take 5, body := (cs.drop 5).take s.cfg.bodyCap, truncCnt := s.countAfter cs }

/-- `s` after a whole line of characters `cs`, fed in `n` bytes and an LF (42_line_parser.md R136, R137). -/
def State.lineFed (s : State) (cs : List Byte) (n : Nat) : State :=
  { s with
    tag := [], body := [], truncCnt := s.countAfter cs
    rxPkt := (lineResult s.cfg.bodyCap cs).storedPacket s.rxPkt
    hist := s.hist ++ List.replicate n (.rx .none) ++ [.rx (lineResult s.cfg.bodyCap cs)]
    returned := .rx (lineResult s.cfg.bodyCap cs) }

/-- At a line boundary there is nothing to clear. -/
theorem AtLineBoundary.clearLine_eq {s : State} (hline : AtLineBoundary s) : s.clearLine = s := by
  obtain ⟨htag, hbody⟩ := hline
  cases s
  subst htag hbody
  rfl

/-- A line boundary holds no character. -/
theorem State.lineHeld_nil {s : State} (hline : AtLineBoundary s) (hcnt : s.truncCnt ≤ 2 ^ s.cfg.wCnt - 1) :
    s.lineHeld [] = s := by
  have hsame : s.countAfter [] = s.truncCnt := by simpa [State.countAfter] using hcnt
  rw [State.lineHeld, hsame, List.take_nil, List.drop_nil, List.take_nil]
  exact hline.clearLine_eq

@[simp] theorem State.lineHeld_cfg (s : State) (cs : List Byte) : (s.lineHeld cs).cfg = s.cfg := rfl

@[simp] theorem State.lineHeld_tag_length (s : State) (cs : List Byte) :
    (s.lineHeld cs).tag.length = min 5 cs.length := List.length_take

@[simp] theorem State.lineHeld_body_length (s : State) (cs : List Byte) :
    (s.lineHeld cs).body.length = min s.cfg.bodyCap (cs.length - 5) := by
  simp [State.lineHeld]

/-- The first five characters are the tag (42_line_parser.md R141). -/
theorem State.lineHeld_of_tag (s : State) {cs : List Byte} (h : cs.length ≤ 5) :
    s.lineHeld cs = { s with tag := cs, body := [], truncCnt := s.countAfter cs } := by
  rw [State.lineHeld, List.take_of_length_le h, List.drop_of_length_le h, List.take_nil]

/-- A character that finds room is not counted. -/
theorem State.countAfter_of_room {s : State} {cs : List Byte} (h : cs.length < 5 + s.cfg.bodyCap) (b : Byte) :
    s.countAfter (cs ++ [b]) = s.countAfter cs := by
  simp only [State.countAfter, List.length_append, List.length_singleton]
  omega

/-- A character that finds none is counted, saturating (42_line_parser.md R134). -/
theorem State.countAfter_of_full {s : State} {cs : List Byte} (h : 5 + s.cfg.bodyCap ≤ cs.length) (b : Byte) :
    s.countAfter (cs ++ [b]) = saturatingSucc s.cfg.wCnt (s.countAfter cs) := by
  simp only [State.countAfter, saturatingSucc, List.length_append, List.length_singleton]
  omega

/-- One more character goes to the tag, to the body, or is counted, as its place in the line says
(42_line_parser.md R132, R134, R141). -/
theorem storeRxByte_lineHeld (b : Byte) (s : State) (cs : List Byte) :
    storeRxByte b (s.lineHeld cs) = s.lineHeld (cs ++ [b]) := by
  by_cases htag : cs.length < 5
  · rw [storeRxByte_tag b (by simp [tagLength]; omega), State.storeTag, memWrite_end,
      State.lineHeld_of_tag s (Nat.le_of_lt htag), State.lineHeld_of_tag s (by simpa using htag),
      State.countAfter_of_room (Nat.lt_add_right _ htag)]
  · have hfull : ¬(s.lineHeld cs).tag.length < tagLength := by simp [tagLength]; omega
    have htake : (cs ++ [b]).take 5 = cs.take 5 := List.take_append_of_le_length (Nat.not_lt.1 htag)
    have hdrop : (cs ++ [b]).drop 5 = cs.drop 5 ++ [b] := List.drop_append_of_le_length (Nat.not_lt.1 htag)
    by_cases hbody : cs.length < 5 + s.cfg.bodyCap
    · rw [storeRxByte_body b hfull (by simp; omega), State.storeBody, memWrite_end]
      simp only [State.lineHeld, State.countAfter_of_room hbody, htake, hdrop]
      rw [List.take_of_length_le (l := cs.drop 5) (by simp; omega),
        List.take_of_length_le (l := cs.drop 5 ++ [b]) (by simp; omega)]
    · rw [storeRxByte_full b hfull (by simp; omega), State.countDropped]
      simp only [State.lineHeld, State.countAfter_of_full (Nat.not_lt.1 hbody), htake, hdrop]
      rw [List.take_append_of_le_length (by simp; omega)]

/-- RX.LF answers a held line with what its characters give, as FRAME does (42_line_parser.md R136, R141). -/
theorem completeLine_lineHeld (s : State) (cs : List Byte) : completeLine (s.lineHeld cs) = s.lineFed cs 0 := by
  rw [State.lineFed, List.replicate_zero, List.append_nil]
  by_cases htag : cs.take 5 = tagBytes
  · cases hd : decodeLine ((cs.drop 5).take s.cfg.bodyCap) with
    | ok pkt =>
      rw [completeLine_of_ok (s := s.lineHeld cs) htag hd, lineResult_of_ok htag hd]
      rfl
    | fail e =>
      rw [completeLine_of_fail (s := s.lineHeld cs) htag hd, lineResult_of_fail htag hd]
      rfl
  · rw [completeLine_of_ne_tag (s := s.lineHeld cs) htag, lineResult_of_ne_tag htag]
    rfl

/-- A byte of a line, not its LF, adds its character, if it is one (42_line_parser.md R132, R135). -/
theorem step_lineHeld {s : State} {b : Byte} {ts : List Transaction} (hp : s.pending = ⟨.rx, [b], 0⟩ :: ts)
    (hlf : b ≠ 0x0A) (cs : List Byte) :
    step (s.lineHeld cs) = .next (({ s with pending := ts }.endRx .none).lineHeld (cs ++ lineChars [b])) := by
  have hstep : step (s.lineHeld cs) = exec (decodeRx b) ({ s with pending := ts }.lineHeld cs) :=
    step_of_decode_ok hp rfl
  rw [hstep]
  obtain ⟨h, _⟩ | ⟨rfl, hi⟩ | ⟨hb, hi⟩ := decodeRx_cases b
  · exact absurd h hlf
  · rw [hi, show lineChars [0x0D] = [] from rfl, List.append_nil]
    rfl
  · have hchar : lineChars [b] = [b] := List.filter_cons_of_pos (bne_iff_ne.2 (isLineBreak_eq_false_iff.1 hb).2)
    rw [hi, exec_rxData_next _ hb, storeRxByte_lineHeld, hchar]
    rfl

/-- The bytes of a line and its LF, fed one by one after the characters `cs`. -/
theorem run_lineHeld {s : State} {line : List Byte} {rest : List Transaction}
    (hp : s.pending = rxTransactions (line ++ [0x0A]) ++ rest) (hlf : 0x0A ∉ line) (cs : List Byte) :
    run (line.length + 1) (s.lineHeld cs) =
      .next ({ s with pending := rest }.lineFed (cs ++ lineChars line) line.length) := by
  induction line generalizing s cs with
  | nil =>
    have hstep : step (s.lineHeld cs) = exec .rxLf ({ s with pending := rest }.lineHeld cs) :=
      step_of_decode_ok hp rfl
    rw [run_succ (hstep.trans (congrArg Host.Outcome.next (completeLine_lineHeld _ cs))),
      show lineChars [] = [] from rfl, List.append_nil]
    rfl
  | cons b line ih =>
    obtain ⟨hb, hline⟩ := List.ne_and_not_mem_of_not_mem_cons hlf
    have hchars : lineChars [b] ++ lineChars line = lineChars (b :: line) := (List.filter_append [b] line).symm
    rw [List.length_cons, run_succ (step_lineHeld hp hb.symm cs), ih rfl hline, List.append_assoc, hchars]
    simp [State.lineFed, State.countAfter, List.replicate_succ]

/-- The bytes of a line and its LF, fed one by one from a line boundary (42_line_parser.md R137, R141). -/
theorem run_line {s : State} {line : List Byte} {rest : List Transaction} (hline : AtLineBoundary s)
    (hcnt : s.truncCnt ≤ 2 ^ s.cfg.wCnt - 1) (hp : s.pending = rxTransactions (line ++ [0x0A]) ++ rest)
    (hlf : 0x0A ∉ line) :
    run (line.length + 1) s = .next ({ s with pending := rest }.lineFed (lineChars line) line.length) := by
  have hrun := run_lineHeld hp hlf []
  rwa [State.lineHeld_nil hline hcnt, List.nil_append] at hrun

theorem lineChars_no_break {line : List Byte} (hlf : 0x0A ∉ line) : ∀ b ∈ lineChars line, b ≠ 0x0A ∧ b ≠ 0x0D := by
  intro b hb
  obtain ⟨hmem, hcr⟩ := List.mem_filter.1 hb
  exact ⟨fun h => hlf (h ▸ hmem), bne_iff_ne.1 hcr⟩

/-! #### A frame that fills the body buffer -/

theorem exec_encode_inv {p n c : Byte} {payload : List Byte} {s t : State}
    (h : exec (.encode p n c payload) s = .next t) :
    payload.length ≤ payloadMax ∧ t = s.returning (.bytes (encodeFrame s.cfg.hexCase p n c payload)) := by
  obtain ⟨hlen, h⟩ := requires_next h
  exact ⟨of_decide_eq_true hlen, answer_next h⟩

/-- A frame holds no CR and no LF: neither its fixed characters nor any digit is one (44_transmit.md R170). -/
theorem encodeFrame_no_break (hc : HexCase) (p n c : Byte) (payload : List Byte) :
    ∀ b ∈ encodeFrame hc p n c payload, b ≠ 0x0A ∧ b ≠ 0x0D := by
  have hpair : ∀ x : Byte, (hexPair hc x).any isLineBreak = false := fun x => any_lineBreak _ <|
    List.forall_mem_cons.2 ⟨nibToHex_not_break hc x.hi, List.forall_mem_singleton.2 (nibToHex_not_break hc x.lo)⟩
  have hpayload : (payload.flatMap (hexPair hc)).any isLineBreak = false := by simp [List.any_flatMap, hpair]
  have hframe : (encodeFrame hc p n c payload).any isLineBreak = false := by
    simp only [encodeFrame, encodeBody, List.any_append, hpair, hpayload, Bool.or_false]
    rfl
  exact fun b hb => isLineBreak_eq_false_iff.1 (by simpa using List.any_eq_false.1 hframe b hb)

/-- The two digits of a byte, at the end of a buffer, read as the byte (40_codec.md R105). -/
theorem hexAt_append_hexPair (before : List Byte) (hc : HexCase) (x : Byte) :
    hexAt (before ++ hexPair hc x) before.length = x := by
  have h0 : byteAt (before ++ hexPair hc x) before.length = nibToHex hc x.hi := byteAt_append_right _ _ 0
  have h1 : byteAt (before ++ hexPair hc x) (before.length + 1) = nibToHex hc x.lo := byteAt_append_right _ _ 1
  rw [hexAt, h0, h1, hexToByte_hexPair]

/-- Payload byte `i` stands at `13 + 2*i` (20_memory.md R56). -/
theorem payloadAt_of_hexPairs {body before after : List Byte} {hc : HexCase} {payload : List Byte}
    (hbody : body = before ++ (payload.flatMap (hexPair hc) ++ after)) (hoff : before.length = 13) :
    payloadAt body payload.length = payload := by
  refine List.ext_getElem (payloadAt_length _ _) fun i _ hi => ?_
  obtain ⟨h0, h1⟩ := byteAt_flatMap_hexPair hc payload after i hi
  simp only [payloadAt, List.getElem_map, List.getElem_range]
  rw [hexAt, hbody, ← hoff, Nat.add_assoc, byteAt_append_right, byteAt_append_right, h0, h1, hexToByte_hexPair]

/-- DECODE accepts a body of the right first character, length and parity (43_decode.md R150). -/
theorem decodeLine_of_fields {body : List Byte} {ds : Byte} (hfirst : byteAt body 0 = 0x54) (hds : hexAt body 10 = ds)
    (hlen : body.length = 16 + 2 * ds.toNat) (hpar : packetParity (packetAt body ds) = (packetAt body ds).parity) :
    decodeLine body = .ok (packetAt body ds) := by
  subst hds
  have hhead : ¬(body.length < 1 ∨ byteAt body 0 ≠ 0x54) := not_or.2 ⟨by omega, not_not.2 hfirst⟩
  unfold decodeLine
  rw [if_neg hhead, if_neg (by omega), if_neg (not_not.2 hlen), if_neg (not_not.2 hpar)]

/-- The 13 characters of a frame's body before the payload (30_encoding.md R70). -/
def bodyHead (hc : HexCase) (p n c ds : Byte) : List Byte :=
  [0x54] ++ hexPair hc p ++ [0x4E] ++ hexPair hc n ++ [0x49] ++ hexPair hc c ++ [0x53] ++ hexPair hc ds ++ [0x50]

theorem encodeBody_eq_bodyHead_append (hc : HexCase) (p n c : Byte) (payload : List Byte) :
    encodeBody hc p n c payload =
      bodyHead hc p n c (BitVec.ofNat 8 payload.length) ++ (payload.flatMap (hexPair hc) ++
        ([0x51] ++ hexPair hc (parityOf p n c (BitVec.ofNat 8 payload.length) payload))) := by
  simp only [encodeBody, bodyHead, List.append_assoc]

section
variable (hc : HexCase) (p n c : Byte) (payload : List Byte)

/-- The four scalars of a frame's body stand at the offsets DECODE reads them from (20_memory.md R56). -/
theorem hexAt_encodeBody : hexAt (encodeBody hc p n c payload) 1 = p ∧ hexAt (encodeBody hc p n c payload) 4 = n ∧
    hexAt (encodeBody hc p n c payload) 7 = c ∧
    hexAt (encodeBody hc p n c payload) 10 = BitVec.ofNat 8 payload.length := by
  simp [encodeBody, hexAt, byteAt, hexPair, hexToByte_hexPair]

/-- The last two characters are the digits of the parity (20_memory.md R56). -/
theorem hexAt_encodeBody_parity : hexAt (encodeBody hc p n c payload) (14 + 2 * payload.length) =
    parityOf p n c (BitVec.ofNat 8 payload.length) payload := by
  have hoff : (bodyHead hc p n c (BitVec.ofNat 8 payload.length) ++ (payload.flatMap (hexPair hc) ++ [0x51])).length =
      14 + 2 * payload.length := by
    simp only [bodyHead, List.length_append, flatMap_hexPair_length, hexPair, List.length_cons, List.length_nil]
    omega
  rw [encodeBody_eq_bodyHead_append, ← List.append_assoc _ [0x51], ← List.append_assoc, ← hoff, hexAt_append_hexPair]

variable {payload}

theorem toNat_datasize (hlen : payload.length ≤ payloadMax) : (BitVec.ofNat 8 payload.length).toNat = payload.length :=
  Nat.mod_eq_of_lt (Nat.lt_succ_of_le hlen)

/-- The fields of a frame's body stand at the offsets DECODE reads them from (20_memory.md R56). -/
theorem packetAt_encodeBody (hlen : payload.length ≤ payloadMax) :
    packetAt (encodeBody hc p n c payload) (BitVec.ofNat 8 payload.length) = outboundPacket n p c payload := by
  obtain ⟨hptype, hnode, hcommand, _⟩ := hexAt_encodeBody hc p n c payload
  have hpayload : payloadAt (encodeBody hc p n c payload) payload.length = payload :=
    payloadAt_of_hexPairs (encodeBody_eq_bodyHead_append hc p n c payload) rfl
  simp only [packetAt, toNat_datasize hlen, hptype, hnode, hcommand, hpayload, hexAt_encodeBody_parity]
  rfl

/-- DECODE of a frame's body gives the packet it was made of (43_decode.md R162). -/
theorem decodeLine_encodeBody (hlen : payload.length ≤ payloadMax) :
    decodeLine (encodeBody hc p n c payload) = .ok (outboundPacket n p c payload) := by
  rw [← packetAt_encodeBody hc p n c hlen]
  obtain ⟨_, _, _, hds⟩ := hexAt_encodeBody hc p n c payload
  refine decodeLine_of_fields rfl hds ?_ ?_
  · rw [encodeBody_length, toNat_datasize hlen]
  · rw [packetAt_encodeBody hc p n c hlen]
    rfl

end

/-- A line that begins with a frame that fills the body buffer is accepted as that frame (42_line_parser.md R142). -/
theorem lineResult_encodeFrame_append (hc : HexCase) (p n c : Byte) {payload : List Byte} (extra : List Byte)
    (hlen : payload.length ≤ payloadMax) :
    lineResult (16 + 2 * payload.length) (encodeFrame hc p n c payload ++ extra) =
      .packetAccepted (outboundPacket n p c payload) := by
  have hline : encodeFrame hc p n c payload ++ extra = tagBytes ++ (encodeBody hc p n c payload ++ extra) :=
    List.append_assoc ..
  have hfive : tagBytes.length = 5 := rfl
  rw [hline]
  refine lineResult_of_ok (List.take_left' hfive) ?_
  rw [List.drop_left' hfive, List.take_left' (encodeBody_length hc p n c payload),
    decodeLine_encodeBody hc p n c hlen]

/-! #### The statements -/

/-- Settles O23: by induction on the line's bytes, the buffers hold the characters fed so far; the LF answers them. -/
theorem lineFedByteByByte : Obligations.LineFedByteByByte := by
  intro s line rest hline hlf hcnt
  refine ⟨_, _, exec_frame_next s (lineChars_no_break hlf),
    run_line (s := { s with pending := rxTransactions (line ++ [0x0A]) ++ rest }) hline hcnt rfl hlf, ?_⟩
  obtain ⟨htag, hbody⟩ := hline
  rw [htag, hbody]
  rfl

/-- Settles O17: by where the line has room for the byte. -/
theorem rxDataStoresOrCounts : Obligations.RxDataStoresOrCounts := by
  intro s b hlf hcr
  rw [exec_rxData_next s (isLineBreak_eq_false_iff.2 ⟨hlf, hcr⟩)]
  congr 1
  split
  · next htag =>
    rw [storeRxByte_tag b htag, State.storeTag, memWrite_end]
    rfl
  · next htag =>
    split
    · next hbody =>
      rw [storeRxByte_body b htag hbody, State.storeBody, memWrite_end]
      rfl
    · next hbody =>
      rw [storeRxByte_full b htag hbody]
      rfl

/-- Settles O19: the three outcomes of the tag comparison and DECODE. -/
theorem rxLfCompletesLine : Obligations.RxLfCompletesLine :=
  fun _ => ⟨fun htag => congrArg Host.Outcome.next (completeLine_of_ne_tag htag),
    fun htag _ hd => congrArg Host.Outcome.next (completeLine_of_ok htag hd),
    fun htag _ hd => congrArg Host.Outcome.next (completeLine_of_fail htag hd)⟩

/-- Settles O21: inside the domain the flag is the comparison, outside it the operation is refused. -/
theorem tagcmpExact : Obligations.TagcmpExact := by
  intro s tag n
  refine ⟨fun htag hn => ?_, fun hout => ?_⟩
  · have hflag : tagMatches tag n = decide (n = 5 ∧ tag = tagBytes) :=
      Bool.eq_iff_iff.2 ((tagMatches_iff tag n (.inl htag)).trans decide_eq_true_iff.symm)
    have hdom : (tag.length == tagLength && decide (n ≤ tagLength)) = true := by simp [tagLength, htag, hn]
    simp only [exec, execTagcmp, hdom, requires_true, hflag]
    rfl
  · have hdom : (tag.length == tagLength && decide (n ≤ tagLength)) = false :=
      Bool.and_eq_false_iff.2 (hout.imp beq_eq_false_iff_ne.2 fun h => decide_eq_false (Nat.not_le.2 h))
    simp only [exec, execTagcmp, hdom, requires_false]

/-- Settles O48: the body buffer holds the frame's body and nothing of what follows. -/
theorem truncatedLineAccepted : Obligations.TruncatedLineAccepted := by
  intro s p n c payload frame extra henc hcap hextra
  obtain ⟨hlen, ht⟩ := exec_encode_inv henc
  obtain rfl : frame = encodeFrame s.cfg.hexCase p n c payload := Returned.bytes.inj (congrArg State.returned ht)
  refine ⟨outboundPacket n p c payload, ?_, rfl, rfl, rfl, rfl, rfl, parityOf_eq_xorAll ..⟩
  rw [exec_frame_next s (List.forall_mem_append.2 ⟨encodeFrame_no_break _ p n c payload, hextra⟩), hcap,
    lineResult_encodeFrame_append s.cfg.hexCase p n c extra hlen]
  rfl

/-- Settles O18: a CR only ends its transaction. -/
theorem rxCrTransparent : Obligations.RxCrTransparent := fun _ => rfl

end Sys2Proof.Machine

namespace Sys2Proof.Machine

/-! ### The line decoder (43_decode.md)

What DECODE gives on every body, which characters it reads, and what it and a peer's parser make of a frame. -/

/-! #### The three results of DECODE -/

/-- A body with the right first character and the length its datasize byte says, of which DECODE checks the parity
(43_decode.md R151 to R153). -/
def BodyShaped (body : List Byte) : Prop :=
  byteAt body 0 = 0x54 ∧ body.length = 16 + 2 * (hexAt body 10).toNat

theorem byteAt_eq_iff {buf : List Byte} {off : Nat} {c : Byte} (hc : c ≠ 0) :
    byteAt buf off = c ↔ buf[off]? = some c := by
  rw [byteAt, Option.getD_eq_iff, or_iff_left fun h => hc h.2.symm]

theorem not_bodyShaped_iff {body : List Byte} : ¬BodyShaped body ↔ body.length < 1 ∨ body[0]? ≠ some 0x54 ∨
    body.length < 12 ∨ body.length ≠ 16 + 2 * (hexAt body 10).toNat := by
  rw [BodyShaped, byteAt_eq_iff (by decide), not_and_or]
  constructor
  · rintro (hfirst | hlen)
    · exact .inr (.inl hfirst)
    · exact .inr (.inr (.inr hlen))
  · rintro (hlen | hfirst | hlen | hlen)
    · exact .inr (by omega)
    · exact .inl hfirst
    · exact .inr (by omega)
    · exact .inr hlen

theorem decodeLine_of_not_shaped {body : List Byte} (h : ¬BodyShaped body) :
    decodeLine body = .fail .malformedLine := by
  unfold decodeLine
  split
  · rfl
  · next hfirst =>
    split
    · rfl
    · exact if_pos fun hlen => h ⟨not_not.1 (not_or.1 hfirst).2, hlen⟩

/-- In a body of the right shape only the parity is left to check (43_decode.md R155, R156). -/
theorem decodeLine_of_shaped {body : List Byte} (h : BodyShaped body) :
    decodeLine body =
      if packetParity (packetAt body (hexAt body 10)) = hexAt body (14 + 2 * (hexAt body 10).toNat) then
        .ok (packetAt body (hexAt body 10))
      else .fail .parityMismatch := by
  obtain ⟨hfirst, hlen⟩ := h
  have hhead : ¬(body.length < 1 ∨ byteAt body 0 ≠ 0x54) := not_or.2 ⟨by omega, not_not.2 hfirst⟩
  unfold decodeLine
  rw [if_neg hhead, if_neg (by omega), if_neg (not_not.2 hlen)]
  exact ite_not ..

theorem decodeLine_eq_malformed_iff {body : List Byte} :
    decodeLine body = .fail .malformedLine ↔ ¬BodyShaped body := by
  by_cases hshape : BodyShaped body
  · rw [decodeLine_of_shaped hshape]
    split <;> simp [hshape]
  · simp [decodeLine_of_not_shaped hshape, hshape]

theorem decodeLine_eq_mismatch_iff {body : List Byte} :
    decodeLine body = .fail .parityMismatch ↔ BodyShaped body ∧
      packetParity (packetAt body (hexAt body 10)) ≠ hexAt body (14 + 2 * (hexAt body 10).toNat) := by
  by_cases hshape : BodyShaped body
  · rw [decodeLine_of_shaped hshape]
    split
    · next hpar => simp [hpar]
    · next hpar => simp [hshape, hpar]
  · simp [decodeLine_of_not_shaped hshape, hshape]

theorem decodeLine_eq_ok_iff {body : List Byte} {pkt : Packet} :
    decodeLine body = .ok pkt ↔ BodyShaped body ∧
      packetParity (packetAt body (hexAt body 10)) = hexAt body (14 + 2 * (hexAt body 10).toNat) ∧
      pkt = packetAt body (hexAt body 10) := by
  by_cases hshape : BodyShaped body
  · rw [decodeLine_of_shaped hshape]
    split
    · next hpar => simp [hshape, hpar, eq_comm]
    · next hpar => simp [hpar]
  · simp [decodeLine_of_not_shaped hshape, hshape]

/-! #### The characters DECODE reads -/

theorem hexAt_congr {a b : List Byte} {off : Nat} (h0 : byteAt a off = byteAt b off)
    (h1 : byteAt a (off + 1) = byteAt b (off + 1)) : hexAt a off = hexAt b off := by
  rw [hexAt, hexAt, h0, h1]

/-- Of a body whose datasize byte is `ds` no character at a separator is read (43_decode.md R158). -/
theorem packetAt_congr_of_separators {a b : List Byte} {ds : Byte}
    (h : ∀ k, k ≠ 3 → k ≠ 6 → k ≠ 9 → k ≠ 12 → k ≠ 13 + 2 * ds.toNat → byteAt a k = byteAt b k) :
    packetAt a ds = packetAt b ds := by
  have hpayload : payloadAt a ds.toNat = payloadAt b ds.toNat := by
    refine List.map_congr_left fun i hi => ?_
    have hi : i < ds.toNat := List.mem_range.1 hi
    apply hexAt_congr <;> apply h <;> omega
  have hscalar : ∀ off, off = 1 ∨ off = 4 ∨ off = 7 ∨ off = 14 + 2 * ds.toNat → hexAt a off = hexAt b off := by
    intro off hoff
    apply hexAt_congr <;> apply h <;> omega
  rw [packetAt, hpayload, hscalar 1 (by omega), hscalar 4 (by omega), hscalar 7 (by omega), hscalar _ (by omega)]
  rfl

/-! #### A frame -/

/-- ENCODE inside its domain completes, with this frame (44_transmit.md R170). -/
theorem exec_encode_next {payload : List Byte} (hlen : payload.length ≤ payloadMax) (p n c : Byte) (s : State) :
    exec (.encode p n c payload) s = .next (s.returning (.bytes (encodeFrame s.cfg.hexCase p n c payload))) := by
  simp only [exec, execEncode, hlen, decide_true, requires_true, answer]

/-- What follows the tag of a frame is its body (44_transmit.md R170). -/
theorem encodeFrame_drop (hc : HexCase) (p n c : Byte) (payload : List Byte) :
    (encodeFrame hc p n c payload).drop 5 = encodeBody hc p n c payload := List.drop_left' rfl

theorem encodeFrame_length (hc : HexCase) (p n c : Byte) (payload : List Byte) :
    (encodeFrame hc p n c payload).length = 21 + 2 * payload.length := by
  rw [encodeFrame, List.length_append, encodeBody_length, ← Nat.add_assoc]
  rfl

/-- A line that is a frame which the body buffer holds is accepted as that frame (43_decode.md R162). -/
theorem lineResult_encodeFrame {cap : Nat} (hc : HexCase) (p n c : Byte) {payload : List Byte}
    (hlen : payload.length ≤ payloadMax) (hcap : 16 + 2 * payload.length ≤ cap) :
    lineResult cap (encodeFrame hc p n c payload) = .packetAccepted (outboundPacket n p c payload) := by
  refine lineResult_of_ok (List.take_left' rfl) ?_
  rw [encodeFrame_drop, List.take_of_length_le (by rwa [encodeBody_length]), decodeLine_encodeBody hc p n c hlen]

/-- A frame holds no CR, so it is its own characters, and CRs after it add none (42_line_parser.md R135). -/
theorem lineChars_encodeFrame_append (hc : HexCase) (p n c : Byte) (payload : List Byte) {crs : List Byte}
    (hcrs : ∀ b ∈ crs, b = 0x0D) :
    lineChars (encodeFrame hc p n c payload ++ crs) = encodeFrame hc p n c payload := by
  have hframe : lineChars (encodeFrame hc p n c payload) = encodeFrame hc p n c payload :=
    List.filter_eq_self.2 fun b hb => bne_iff_ne.2 (encodeFrame_no_break hc p n c payload b hb).2
  have hnone : lineChars crs = [] := List.filter_eq_nil_iff.2 fun b hb => by simp [hcrs b hb]
  calc lineChars (encodeFrame hc p n c payload ++ crs)
      = lineChars (encodeFrame hc p n c payload) ++ lineChars crs := List.filter_append ..
    _ = encodeFrame hc p n c payload := by rw [hframe, hnone, List.append_nil]

/-- Nor does a frame hold an LF, nor do CRs after it: they are bytes of one line (42_line_parser.md R136). -/
theorem lf_not_mem_encodeFrame_append (hc : HexCase) (p n c : Byte) (payload : List Byte) {crs : List Byte}
    (hcrs : ∀ b ∈ crs, b = 0x0D) : 0x0A ∉ encodeFrame hc p n c payload ++ crs := by
  rw [List.mem_append]
  rintro (hmem | hmem)
  · exact (encodeFrame_no_break hc p n c payload _ hmem).1 rfl
  · exact absurd (hcrs _ hmem) (by decide)

/-! #### From one node to a peer -/

/-- The bytes of a SEND are the frame of its `tx_pkt` and then `TERM` (44_transmit.md R175). -/
theorem exec_send_sent {p c : Byte} {payload : List Byte} {now : Nat} {s t : State}
    (h : exec (.send p c payload now) s = .next t) :
    payload.length ≤ payloadMax ∧ t.txPkt = outboundPacket s.cfg.nodeId p c payload ∧
      t.hist.getLast? = some (.tx (encodeFrame s.cfg.hexCase p s.cfg.nodeId c payload ++ s.cfg.term)) := by
  obtain ⟨hlen, _, _, rfl⟩ := exec_send_inv h
  rw [sendPacket_eq]
  exact ⟨hlen, rfl, List.getLast?_concat ..⟩

/-- No character of a line that the buffers hold is counted (42_line_parser.md R134). -/
theorem State.countAfter_of_fits {s : State} {cs : List Byte} (h : cs.length ≤ 5 + s.cfg.bodyCap)
    (hcnt : s.truncCnt ≤ 2 ^ s.cfg.wCnt - 1) : s.countAfter cs = s.truncCnt := by
  rw [State.countAfter, Nat.sub_sub, Nat.sub_eq_zero_of_le h]
  exact min_eq_left hcnt

/-- A line whose characters are a packet's and which the buffers hold, fed to a peer at a line boundary, is accepted
(42_line_parser.md R136, R137). -/
theorem run_line_accepted {s : State} {line : List Byte} {pkt : Packet} (hline : AtLineBoundary s)
    (hcnt : s.truncCnt ≤ 2 ^ s.cfg.wCnt - 1) (hlf : 0x0A ∉ line) (hfits : (lineChars line).length ≤ 5 + s.cfg.bodyCap)
    (hres : lineResult s.cfg.bodyCap (lineChars line) = .packetAccepted pkt) (rest : List Transaction) :
    ∃ t, run (line ++ [0x0A]).length { s with pending := rxTransactions (line ++ [0x0A]) ++ rest } = .next t ∧
      t.returned = .rx (.packetAccepted pkt) ∧ t.rxPkt = some pkt ∧ t.truncCnt = s.truncCnt ∧ AtLineBoundary t ∧
      t.pending = rest := by
  rw [List.length_append]
  refine ⟨_, run_line (s := { s with pending := _ }) hline hcnt rfl hlf, ?_⟩
  rw [State.lineFed, hres]
  exact ⟨rfl, rfl, State.countAfter_of_fits hfits hcnt, ⟨rfl, rfl⟩, rfl⟩

/-! #### The statements -/

/-- Settles O28: what follows the tag of the frame is a body, and each of its fields stands where DECODE reads it. -/
theorem decodeInvertsEncode : Obligations.DecodeInvertsEncode := by
  intro s p n c payload hlen
  refine ⟨_, exec_encode_next hlen p n c s, ?_⟩
  rw [encodeFrame_drop, ← outboundPacket_eq, ← decodeLine_encodeBody s.cfg.hexCase p n c hlen]
  rfl

/-- Settles O47: SEND's bytes are one line whose characters are the frame of its `tx_pkt`, and the peer's parser gives what
FRAME gives on them. -/
theorem peerAcceptsWhatIsSent : Obligations.PeerAcceptsWhatIsSent := by
  intro sender sent peer p c payload crs now rest hsend hcrs hterm hline hcap hcnt
  obtain ⟨hlen, hpkt, hsent⟩ := exec_send_sent hsend
  have hchars := lineChars_encodeFrame_append sender.cfg.hexCase p sender.cfg.nodeId c payload hcrs
  have hlf := lf_not_mem_encodeFrame_append sender.cfg.hexCase p sender.cfg.nodeId c payload hcrs
  rw [hterm, ← List.append_assoc] at hsent
  rw [hpkt]
  refine ⟨_, (run_line_accepted hline hcnt hlf ?_ ?_ rest).imp fun _ ht => ⟨hsent, ht⟩⟩
  · rw [hchars, encodeFrame_length]
    omega
  · rw [hchars]
    exact lineResult_encodeFrame _ _ _ _ hlen hcap

/-- Settles O24: `malformed` says that the body has not the right shape, and `checked` is PARITY of the packet at the fixed
offsets; DECODE decides by these two. -/
theorem decodeResultAtFixedOffsets : Obligations.DecodeResultAtFixedOffsets := by
  intro s body
  refine ⟨decodeLine body, rfl, ?_⟩
  intro H ds payload malformed checked
  have hmal : malformed ↔ ¬BodyShaped body := not_bodyShaped_iff.symm
  have hchecked : checked = packetParity (packetAt body (H 10)) := (parityOf_eq_xorAll ..).symm
  rw [hmal, hchecked, not_not]
  exact ⟨decodeLine_eq_malformed_iff, decodeLine_eq_mismatch_iff, fun _ => decodeLine_eq_ok_iff⟩

/-- Settles O25: every character DECODE reads stands off the separators. -/
theorem separatorsNotCompared : Obligations.SeparatorsNotCompared := by
  intro s a b hlen hsame
  have hbyte : ∀ k, k ≠ 3 → k ≠ 6 → k ≠ 9 → k ≠ 12 → k ≠ 13 + 2 * (hexAt a 10).toNat → byteAt a k = byteAt b k :=
    fun k h3 h6 h9 h12 hq => congrArg (·.getD 0) (hsame k h3 h6 h9 h12 hq)
  have hds : hexAt a 10 = hexAt b 10 := by apply hexAt_congr <;> apply hbyte <;> omega
  have hfirst : byteAt a 0 = byteAt b 0 := by apply hbyte <;> omega
  exact exec_decode_congr (decodeLine_congr hlen hfirst hds (packetAt_congr_of_separators (hds ▸ hbyte))) s

end Sys2Proof.Machine

namespace Sys2Proof.Machine

/-! ### Transmit (44_transmit.md)

The layout of ENCODE's frame, what ENCODE and SEND refuse, and SEND where TE is not configured. -/

/-! #### ENCODE -/

/-- The fields of a frame in order, its last one as the exclusive-or of the others (44_transmit.md R170, 41_parity.md R121). -/
theorem encodeFrame_eq (hc : HexCase) (p n c : Byte) (payload : List Byte) : encodeFrame hc p n c payload =
    tagBytes ++ [0x54] ++ hexPair hc p ++ [0x4E] ++ hexPair hc n ++ [0x49] ++ hexPair hc c ++
      [0x53] ++ hexPair hc (BitVec.ofNat 8 payload.length) ++ [0x50] ++ payload.flatMap (hexPair hc) ++
      [0x51] ++ hexPair hc (xorAll (p :: n :: c :: BitVec.ofNat 8 payload.length :: payload)) := by
  simp only [encodeFrame, encodeBody, parityOf_eq_xorAll, List.append_assoc]

/-- ENCODE refuses a payload outside its operand range (44_transmit.md R170). -/
theorem exec_encode_refused {payload : List Byte} (hlong : payloadMax < payload.length) (p n c : Byte) (s : State) :
    exec (.encode p n c payload) s = .refused .payloadTooLong := by
  simp only [exec, execEncode, hlong.not_ge, decide_false, requires_false]

/-! #### The domain of SEND -/

/-- SEND refuses a payload that is too long, before it looks at anything else (44_transmit.md R180). -/
theorem exec_send_payloadTooLong {payload : List Byte} (hlong : payloadMax < payload.length) (p c : Byte) (now : Nat)
    (s : State) : exec (.send p c payload now) s = .refused .payloadTooLong := by
  simp only [exec, execSend, hlong.not_ge, decide_false, requires_false]

/-- SEND refuses a baud rate that gives no hold time where it would need one (45_te_timer.md R192). -/
theorem exec_send_baudZero {payload : List Byte} {s : State} (hlen : payload.length ≤ payloadMax)
    (hen : s.cfg.teEn = true) (hbaud : s.cfg.baud = 0) (p c : Byte) (now : Nat) :
    exec (.send p c payload now) s = .refused .baudZero := by
  have hdom : (!s.cfg.teEn || decide (1 ≤ s.cfg.baud)) = false := by rw [hen, hbaud]; rfl
  simp only [exec, execSend, hlen, decide_true, requires_true, hdom, requires_false]

/-- Where TE is not configured SEND needs no baud rate and leaves the TE timer alone (44_transmit.md R178). -/
theorem exec_send_without_te {payload : List Byte} {now : Nat} {s : State} (hlen : payload.length ≤ payloadMax)
    (hoff : s.cfg.teEn = false) (hnow : s.cfg.timeFits now = true) (p c : Byte) :
    ∃ t, exec (.send p c payload now) s = .next t ∧ t.te = s.te ∧ t.releaseAt = s.releaseAt := by
  refine ⟨_, exec_send_next hlen (fun hen => absurd (hoff.symm.trans hen) Bool.false_ne_true) hnow, ?_⟩
  simp [sendPacket_eq, hoff]

/-! #### The statements -/

/-- Settles O29: what BYTE2HEX gives for a byte is the pair of digits the frame holds for it. -/
theorem encodeLayout : Obligations.EncodeLayout := fun s p n c payload =>
  ⟨fun hlen => ⟨hexPair s.cfg.hexCase, encodeFrame s.cfg.hexCase p n c payload,
    fun b => ⟨_, _, rfl, exec_byte2hex_next b s⟩, exec_encode_next hlen p n c s, encodeFrame_eq ..,
    encodeFrame_length .., encodeFrame_no_break _ p n c payload⟩,
  fun hlong => exec_encode_refused hlong p n c s⟩

/-- Settles O30: inside its domain SEND is `sendPacket`, whose whole effect is one record update; the frame in it is the one
ENCODE gives for the node id of `cfg`. -/
theorem sendEffect : Obligations.SendEffect := by
  intro s p c payload now hlen hbaud hnow
  refine ⟨_, exec_encode_next hlen p s.cfg.nodeId c s, ?_⟩
  rw [exec_send_next hlen hbaud hnow, sendPacket_eq, outboundPacket_eq]
  rfl

/-- Settles O31: the two refusals, and SEND without TE under the configuration with the given baud rate. -/
theorem sendDomain : Obligations.SendDomain := fun s p c _ now =>
  ⟨fun hlong => exec_send_payloadTooLong hlong p c now s,
  fun hlen hen hbaud => exec_send_baudZero hlen hen hbaud p c now,
  fun hlen hoff hnow baud => exec_send_without_te (s := { s with cfg := { s.cfg with baud := baud } }) hlen hoff hnow p c⟩

end Sys2Proof.Machine

namespace Sys2Proof.Machine

/-! ### The TE timer (45_te_timer.md)

What HOLDCALC returns and how far it is below the real time, when TICK releases TE, and that no operation but SEND, RESET
and a due TICK ends a hold. -/

/-! #### HOLDCALC -/

/-- HOLDCALC of a baud rate in its domain (45_te_timer.md R190). -/
theorem exec_holdcalc_next {baud : Nat} (hbaud : 1 ≤ baud) (ds : Byte) (s : State) :
    exec (.holdcalc baud ds) s = .next (s.returning (.number (holdTime s.cfg.fixedOverhead baud ds.toNat))) := by
  simp only [exec, execHoldcalc, hbaud, decide_true, requires_true, answer]

/-- A whole number of microseconds per character is at most the real time of one, so `k` characters take at most their
real time (45_te_timer.md R194). -/
theorem quotient_mul_le (n baud k : Nat) : n / baud * k * baud ≤ n * k := by
  rw [Nat.mul_right_comm]
  exact Nat.mul_le_mul_right k (Nat.div_mul_le_self n baud)

/-- The quotient loses less than one microsecond of each character (45_te_timer.md R194). -/
theorem lt_quotient_mul_add {n baud k : Nat} (hbaud : 1 ≤ baud) (hk : 0 < k) : n * k < (n / baud * k + k) * baud := by
  rw [← Nat.succ_mul, Nat.mul_right_comm, Nat.mul_comm _ baud]
  exact Nat.mul_lt_mul_of_pos_right (Nat.lt_mul_div_succ n hbaud) hk

/-! #### TICK -/

/-- TICK refuses a `now` that its interface cannot carry (45_te_timer.md R195). -/
theorem exec_tick_refused {now : Nat} {s : State} (h : s.cfg.timeFits now = false) :
    exec (.tick now) s = .refused .timeTooWide := by
  simp only [exec, execTick, h, requires_false]

/-- TICK's release as one branch (45_te_timer.md R195, R198). -/
theorem checkRelease_eq_ite (now : Nat) (s : State) : checkRelease now s =
    if s.te = true ∧ s.releaseAt ≤ now then { s with te := false, hist := s.hist ++ [.teRelease] } else s := by
  have hdue : releaseDue s.te now s.releaseAt = true ↔ s.te = true ∧ s.releaseAt ≤ now := by simp [releaseDue]
  simp only [checkRelease, hdue]
  split
  · next h => simp [State.releaseTe, h.1]
  · rfl

/-! #### A hold and what ends it -/

/-- TE is asserted until the deadline `d`, under the configuration `c`. -/
structure TeHeld (c : Config) (d : Nat) (s : State) : Prop where
  cfg_eq : s.cfg = c
  te_eq : s.te = true
  releaseAt_eq : s.releaseAt = d

/-- The operation `i` neither starts a hold nor ends one whose deadline is `d`. -/
def LeavesHold (d : Nat) (i : Instr) : Prop :=
  (∀ p c payload now, i ≠ .send p c payload now) ∧ i ≠ .reset ∧ ∀ now, i = .tick now → now < d

section
variable {c : Config} {d : Nat} {s t : State}

/-- A SEND holds TE until its plain deadline, if that does not wrap (45_te_timer.md R193). -/
theorem teHeld_of_send {p cmd : Byte} {payload : List Byte} {now : Nat} (hen : s.cfg.teEn = true)
    (h : exec (.send p cmd payload now) s = .next t) (hfits : s.cfg.timeFits (now + holdOf s payload.length) = true) :
    TeHeld s.cfg (now + holdOf s payload.length) t := by
  obtain ⟨_, _, _, rfl⟩ := exec_send_inv h
  rw [sendPacket_eq]
  exact {
    cfg_eq := rfl
    te_eq := by simp [hen]
    releaseAt_eq := by simp [hen, releaseTime_no_wrap _ _ _ hfits] }

/-- What the host has queued is no part of a hold. -/
theorem TeHeld.setPending (h : TeHeld c d s) (ts : List Transaction) : TeHeld c d { s with pending := ts } :=
  ⟨h.cfg_eq, h.te_eq, h.releaseAt_eq⟩

/-- `te` and `release_at` have no other writers than the operations that `LeavesHold` excludes (45_te_timer.md R199). -/
theorem TeHeld.exec (h : TeHeld c d s) {i : Instr} (hi : LeavesHold d i) (hx : exec i s = .next t) : TeHeld c d t := by
  obtain ⟨hsend, hrst, htick⟩ := hi
  obtain ⟨_, _, hclear, _⟩ := exec_te_writers hx
  obtain ⟨_, _, hrelease, hcfg, _⟩ := registerWriters i s t hx
  refine ⟨hcfg.trans h.cfg_eq, ?_, ?_⟩
  · by_contra hte
    obtain hi | ⟨now, hi, hdue⟩ := hclear h.te_eq (Bool.eq_false_of_not_eq_true hte)
    · exact hrst hi
    · exact (htick now hi).not_ge (h.releaseAt_eq ▸ hdue)
  · by_contra hne
    obtain ⟨p, cmd, payload, now, hi⟩ := hrelease fun heq => hne (heq.trans h.releaseAt_eq)
    exact hsend p cmd payload now hi

/-- A run of more than one step that completes begins with a step that does. -/
theorem run_succ_next {n : Nat} (h : run (n + 1) s = .next t) : ∃ s', step s = .next s' ∧ run n s' = .next t := by
  cases hstep : step s with
  | next s' => exact ⟨s', rfl, run_succ hstep ▸ h⟩
  | fault f => exact nomatch f
  | refused r => simp [run, hstep] at h

/-- A hold outlasts every queue of operations that leave it, and the run takes exactly these (70_reset_and_hazards.md R253). -/
theorem TeHeld.run (h : TeHeld c d s) {ops rest : List Transaction} (hp : s.pending = ops ++ rest)
    (hops : ∀ o ∈ ops, ∀ i, decode o = .ok i → LeavesHold d i) (hrun : run ops.length s = .next t) :
    TeHeld c d t ∧ t.pending = rest := by
  induction ops generalizing s with
  | nil =>
    obtain rfl : s = t := Host.Outcome.next.inj hrun
    exact ⟨h, hp⟩
  | cons o ops ih =>
    obtain ⟨ho, hops⟩ := List.forall_mem_cons.1 hops
    obtain ⟨s', hstep, hrun⟩ := run_succ_next hrun
    obtain ⟨hnil, _⟩ | ⟨_, _, i, hcons, hdec, hx⟩ := step_next_cases hstep
    · simp [hp] at hnil
    · obtain ⟨rfl, rfl⟩ := List.cons.inj (hp.symm.trans hcons)
      obtain ⟨_, _, _, _, hpending, _⟩ := registerWriters _ _ _ hx
      exact ih ((h.setPending _).exec (ho i hdec) hx) hpending hops hrun

/-- A TICK ends a hold exactly at or after its deadline (45_te_timer.md R195). -/
theorem TeHeld.tick (h : TeHeld c d s) {now : Nat} (hnow : c.timeFits now = true) :
    ∃ u, Machine.exec (.tick now) s = .next u ∧ (u.te = false ↔ d ≤ now) := by
  refine ⟨_, exec_tick_next (h.cfg_eq ▸ hnow), ?_⟩
  simp [checkRelease_eq, h.te_eq, h.releaseAt_eq]

end

/-! #### The statements -/

/-- Settles O34: SEND starts a hold, the run keeps it, and a TICK ends it when due. -/
theorem teHeldUntilDeadline : Obligations.TeHeldUntilDeadline := by
  intro s s1 p c payload now hen hsend hfits
  have hheld := teHeld_of_send hen hsend hfits
  refine ⟨hheld.te_eq, hheld.releaseAt_eq, fun ops rest t hops hrun => ?_⟩
  obtain ⟨hend, hpending⟩ := (hheld.setPending _).run rfl hops hrun
  exact ⟨hend.te_eq, hend.releaseAt_eq, hpending, fun _ hn => hend.tick hn⟩

/-- Settles O32: quotient and remainder of the division by the baud rate, and the error of that division times the
character count, which is positive because the tag is counted. -/
theorem holdcalcResult : Obligations.HoldcalcResult := by
  refine fun s baud ds => ⟨fun hbaud => ?_, rfl⟩
  have hcount : 0 < 2 * ds.toNat + 5 + s.cfg.fixedOverhead := by omega
  refine ⟨10000000 / baud, 10000000 % baud, _, exec_holdcalc_next hbaud ds s, (Nat.div_add_mod _ _).symm,
    Nat.mod_lt _ hbaud, rfl, quotient_mul_le _ _ _, lt_quotient_mul_add hbaud hcount, fun hfast => ?_⟩
  rw [holdTime, Nat.div_eq_of_lt hfast, Nat.zero_mul]

/-- Settles O33: TICK's release as one branch, and its refusal. -/
theorem tickReleasesWhenDue : Obligations.TickReleasesWhenDue := by
  refine fun s now => ⟨fun hnow => ?_, exec_tick_refused⟩
  rw [exec_tick_next hnow, checkRelease_eq_ite]
  split <;> rfl

end Sys2Proof.Machine

namespace Sys2Proof.Machine

/-! ### Decode failures (60_exceptions.md)

The entry to a decode failure is the one shared operation `State.reportFailure`, whose field lemmas are its frame. -/

/-- A completed line that returns a failure did nothing but report it: an ignored and an accepted line return something
else (42_line_parser.md R136). -/
theorem completeLine_eq_reportFailure {s : State} {e : LineError}
    (hret : (completeLine s).returned = .rx (.decodeError e)) : completeLine s = s.reportFailure e := by
  obtain ⟨_, hs⟩ | ⟨pkt, _, _, hs⟩ | ⟨e', _, _, hs⟩ := completeLine_cases s
  case inl => simp [hs] at hret
  case inr.inl => simp [hs] at hret
  case inr.inr =>
    obtain rfl : e' = e := by simpa [hs] using hret
    exact hs

/-- Settles O20: the state after a returned failure is `State.reportFailure`, whose frame is field by field. -/
theorem decodeFailureEntry : Obligations.DecodeFailureEntry := by
  intro s t e hexec hret
  obtain rfl : completeLine s = t := Host.Outcome.next.inj hexec
  rw [completeLine_eq_reportFailure hret]
  exact ⟨State.reportFailure_rxPkt s e, State.reportFailure_tag s e, State.reportFailure_body s e,
    State.reportFailure_truncCnt s e, State.reportFailure_txPkt s e, State.reportFailure_te s e,
    State.reportFailure_releaseAt s e, State.reportFailure_hist s e, State.reportFailure_cfg s e,
    State.reportFailure_pending s e⟩

end Sys2Proof.Machine

namespace Sys2Proof.Machine

/-! ### RESET (70_reset_and_hazards.md R240 to R242) -/

/-- The history that a release leaves, as one that grows (10_state.md R33). -/
theorem State.releaseTe_hist_eq_append (s : State) :
    s.releaseTe.hist = s.hist ++ (if s.te then [.teRelease] else []) := by
  cases hte : s.te <;> simp [hte]

/-- The whole effect of RESET: the elements that it leaves (`cfg`, `release_at`, the pending transactions) are put into
the power-on state, and the history grows by the release (70_reset_and_hazards.md R240 to R242). -/
theorem exec_reset_eq (s : State) : exec .reset s = .next
    { State.reset with
      cfg := s.cfg
      releaseAt := s.releaseAt
      pending := s.pending
      hist := s.hist ++ (if s.te then [.teRelease] else []) } := by
  rw [← State.releaseTe_hist_eq_append]
  rfl

/-- The reset values meet the invariant in every instance: empty buffers and a zero counter are within every capacity,
and a released TE asks nothing of the configuration or the deadline. -/
theorem inv_reset_of_kept (c : Config) (releaseAt : Nat) (ts : List Transaction) :
    Inv { State.reset with cfg := c, releaseAt := releaseAt, pending := ts } :=
  { invAtReset with
    body_le := Nat.zero_le _
    trunc_le := Nat.zero_le _
    rx_good := nofun
    te_configured := nofun
    release_fits := nofun }

/-- Settles O35: RESET's whole effect gives each element, and what it leaves is free in the invariant. -/
theorem resetEffect : Obligations.ResetEffect := fun s =>
  ⟨_, exec_reset_eq s, rfl, rfl, rfl, rfl, rfl, rfl, rfl, rfl, rfl, rfl,
    inv_reset_of_kept s.cfg s.releaseAt s.pending⟩

end Sys2Proof.Machine
